-- ==== Sys2Proof/Word.lean ====
section
/-! DEFINITION. The bit-vector types of the core: every value is unsigned (R9), bit 0 least significant (R10). -/

namespace Sys2Proof

/-- 4 bits: a register number, a key index, a row count, an opcode class (R9, R12). -/
abbrev Nibble := BitVec 4

/-- 8 bits: a memory cell, a general register, a timer (R9). -/
abbrev Byte := BitVec 8

/-- The 12-bit address operand `nnn` (R91). -/
abbrev Addr := BitVec 12

/-- 16 bits: an instruction word, `I`, `PC`, a return address (R9, R24, R25). -/
abbrev Word := BitVec 16

end Sys2Proof
end

