-- ==== Sys2Proof/Config.lean ====
section
/-! DEFINITION. The implementation parameters of R8, the moves of the host (R327) and the free values the
environment supplies (R40). -/

namespace Sys2Proof

/-- `VF_DEST_ORDER` (R8, R150, OPEN by D3): which write of a flag-writing instruction comes last. -/
inductive VfDestOrder where
  | flagLast
  | resultLast
  deriving DecidableEq, Repr

/-- `SHL_FLAG_FORM` (R8, R161): the flag of 8xyE is 0x00 or 0x80 (`mask`), or 0 or 1 (`bool`). -/
inductive ShlFlagForm where
  | mask
  | bool
  deriving DecidableEq, Repr

/-- `SYS_POLICY` (R8, R180, OPEN by D6). -/
inductive SysPolicy where
  | fault
  | nop
  deriving DecidableEq, Repr

/-- The parameters R8 leaves to the implementation. The ones R8 marks "source" (memory size, stack
depth, display size and so on) are fixed in the definitions that use them. -/
structure Config where
  /-- `SPEED`: step slots per frame. -/
  speed : Nat
  vfDestOrder : VfDestOrder
  shlFlagForm : ShlFlagForm
  sysPolicy : SysPolicy
  /-- `PAUSE_HOLDS_TIMERS` (R130, D7). -/
  pauseHoldsTimers : Bool
  /-- `FONT`: 16 glyphs of 5 bytes (R70, D20). -/
  font : Vector Byte 80
  deriving DecidableEq, Repr

/-- The default `FONT` table of D20, glyph `d` at `5·d`.
PRESUMED (log 6): the spec marks the bytes as general knowledge. -/
def Config.defaultFont : Vector Byte 80 :=
  ⟨#[0xF0, 0x90, 0x90, 0x90, 0xF0,
     0x20, 0x60, 0x20, 0x20, 0x70,
     0xF0, 0x10, 0xF0, 0x80, 0xF0,
     0xF0, 0x10, 0xF0, 0x10, 0xF0,
     0x90, 0x90, 0xF0, 0x10, 0x10,
     0xF0, 0x80, 0xF0, 0x10, 0xF0,
     0xF0, 0x80, 0xF0, 0x90, 0xF0,
     0xF0, 0x10, 0x20, 0x40, 0x40,
     0xF0, 0x90, 0xF0, 0x90, 0xF0,
     0xF0, 0x90, 0xF0, 0x10, 0xF0,
     0xF0, 0x90, 0xF0, 0x90, 0x90,
     0xE0, 0x90, 0xE0, 0x90, 0xE0,
     0xF0, 0x80, 0x80, 0x80, 0xF0,
     0xE0, 0x90, 0x90, 0x90, 0xE0,
     0xF0, 0x80, 0xF0, 0x80, 0xF0,
     0xF0, 0x80, 0xF0, 0x80, 0x80], rfl⟩

/-- The defaults of R8, the ones the spec's test vectors use. -/
def Config.default : Config where
  speed := 10
  vfDestOrder := .flagLast
  shlFlagForm := .mask
  sysPolicy := .fault
  pauseHoldsTimers := true
  font := Config.defaultFont

/-- Free value: the byte of the `n`-th `draw_rand()` the script in State does not give (R40, R163, D13;
log 2). It has no body, so a claim holds whatever it is. -/
opaque Config.freeDraw (n : Nat) : Byte

/-- Free value: the answer to the `n`-th query `pressed(k)` the script in State does not give (R40, R240,
D14; log 3). It has no body, so a claim holds whatever it is. -/
opaque Config.freePressed (n : Nat) (k : Nibble) : Bool

/-- What the host may do between frames (R327, R342). -/
inductive Machine.HostEvent where
  /-- call `Cycle()`: run one frame (R128) -/
  | cycle
  /-- deliver `key_down(k)` (R244) -/
  | keyDown (k : Nibble)
  /-- `load(rom)` (R342, R343) -/
  | load (rom : List Byte)
  /-- `reset()` (R342) -/
  | reset
  deriving DecidableEq, Repr, Inhabited

/-- Free value: the host's `n`-th move between frames where the plan in State gives none (R40, R134, R327;
log 4). It has no body, so a claim holds whatever the host does. -/
opaque Config.freeHost (n : Nat) : Machine.HostEvent

end Sys2Proof
end

