-- ==== Sys2Proof/Syntax.lean ====
section
/-! DEFINITION. The 35 instructions of the opcode map (R101), one constructor per row of
spec/opcode_table.json, with the fields the row names (R12, R91). -/

namespace Sys2Proof

inductive Instr where
  /-- 0nnn SYS nnn (R180) -/
  | sys (nnn : Addr)
  /-- 00E0 CLS (R220) -/
  | cls
  /-- 00EE RET (R181) -/
  | ret
  /-- 1nnn JP nnn (R183) -/
  | jp (nnn : Addr)
  /-- 2nnn CALL nnn (R182) -/
  | call (nnn : Addr)
  /-- 3xkk SE Vx, kk (R184) -/
  | seByte (x : Nibble) (kk : Byte)
  /-- 4xkk SNE Vx, kk (R185) -/
  | sneByte (x : Nibble) (kk : Byte)
  /-- 5xy0 SE Vx, Vy (R186) -/
  | seReg (x y : Nibble)
  /-- 6xkk LD Vx, kk (R151) -/
  | ldByte (x : Nibble) (kk : Byte)
  /-- 7xkk ADD Vx, kk (R152) -/
  | addByte (x : Nibble) (kk : Byte)
  /-- 8xy0 LD Vx, Vy (R153) -/
  | ldReg (x y : Nibble)
  /-- 8xy1 OR Vx, Vy (R154) -/
  | orReg (x y : Nibble)
  /-- 8xy2 AND Vx, Vy (R155) -/
  | andReg (x y : Nibble)
  /-- 8xy3 XOR Vx, Vy (R156) -/
  | xorReg (x y : Nibble)
  /-- 8xy4 ADD Vx, Vy (R157) -/
  | addReg (x y : Nibble)
  /-- 8xy5 SUB Vx, Vy (R158) -/
  | subReg (x y : Nibble)
  /-- 8xy6 SHR Vx {, Vy}: y is ignored (R159) -/
  | shrReg (x y : Nibble)
  /-- 8xy7 SUBN Vx, Vy (R160) -/
  | subnReg (x y : Nibble)
  /-- 8xyE SHL Vx {, Vy}: y is ignored (R161) -/
  | shlReg (x y : Nibble)
  /-- 9xy0 SNE Vx, Vy (R187) -/
  | sneReg (x y : Nibble)
  /-- Annn LD I, nnn (R200) -/
  | ldI (nnn : Addr)
  /-- Bnnn JP V0, nnn (R190) -/
  | jpV0 (nnn : Addr)
  /-- Cxkk RND Vx, kk (R163) -/
  | rnd (x : Nibble) (kk : Byte)
  /-- Dxyn DRW Vx, Vy, n (R221) -/
  | drw (x y n : Nibble)
  /-- Ex9E SKP Vx (R241) -/
  | skp (x : Nibble)
  /-- ExA1 SKNP Vx (R242) -/
  | sknp (x : Nibble)
  /-- Fx07 LD Vx, DT (R250) -/
  | ldVxDt (x : Nibble)
  /-- Fx0A LD Vx, K (R243) -/
  | ldVxK (x : Nibble)
  /-- Fx15 LD DT, Vx (R251) -/
  | ldDtVx (x : Nibble)
  /-- Fx18 LD ST, Vx (R252) -/
  | ldStVx (x : Nibble)
  /-- Fx1E ADD I, Vx (R201) -/
  | addIVx (x : Nibble)
  /-- Fx29 LD F, Vx (R202) -/
  | ldFVx (x : Nibble)
  /-- Fx33 LD B, Vx (R203) -/
  | ldBVx (x : Nibble)
  /-- Fx55 LD [I], Vx (R204) -/
  | ldMemVx (x : Nibble)
  /-- Fx65 LD Vx, [I] (R205) -/
  | ldVxMem (x : Nibble)
  deriving DecidableEq, Repr

end Sys2Proof
end

