-- ==== Sys2Proof/WellFormed.lean ====
section
/-! DEFINITION. Which instruction terms stand for a word. Field widths are in the types (R93: "every value
names a register"), so one check is left: a class-0 word whose low byte is 0xE0 or 0xEE is CLS or RET,
never SYS (R96, R101's exclusion on the SYS row). -/

namespace Sys2Proof

/-- `kk` of an address operand: its low byte (R91, "nnn = x ++ kk"). -/
def addrLow (nnn : Addr) : Byte := nnn.extractLsb' 0 8

/-- The instruction is one some word decodes to. -/
def Instr.wf : Instr → Bool
  | .sys nnn => addrLow nnn != 0xE0#8 && addrLow nnn != 0xEE#8
  | .cls | .ret => true
  | .jp _ | .call _ | .ldI _ | .jpV0 _ => true
  | .seByte _ _ | .sneByte _ _ | .ldByte _ _ | .addByte _ _ | .rnd _ _ => true
  | .seReg _ _ | .sneReg _ _ | .ldReg _ _ | .orReg _ _ | .andReg _ _ | .xorReg _ _ => true
  | .addReg _ _ | .subReg _ _ | .shrReg _ _ | .subnReg _ _ | .shlReg _ _ => true
  | .drw _ _ _ => true
  | .skp _ | .sknp _ | .ldVxDt _ | .ldVxK _ | .ldDtVx _ | .ldStVx _ => true
  | .addIVx _ | .ldFVx _ | .ldBVx _ | .ldMemVx _ | .ldVxMem _ => true

end Sys2Proof
end

