-- ==== Sys2Proof/Decode.lean ====
section
/-! DEFINITION. Decoding (R91-R104) and encoding (R101). Decoding is total on every word: an instruction, or
the decode failure with the three discriminant fields (R95, R102). -/

namespace Sys2Proof

/-- What a decode failure reports: top nibble, low byte, low nibble (R95). -/
structure Discriminant where
  i : Nibble
  kk : Byte
  n : Nibble
  deriving DecidableEq, Repr

/-- `i`, bits 15-12 (R91). -/
def iField (w : Word) : Nibble := w.extractLsb' 12 4
/-- `x`, bits 11-8 (R91). -/
def xField (w : Word) : Nibble := w.extractLsb' 8 4
/-- `y`, bits 7-4 (R91). -/
def yField (w : Word) : Nibble := w.extractLsb' 4 4
/-- `n`, bits 3-0 (R91). -/
def nField (w : Word) : Nibble := w.extractLsb' 0 4
/-- `kk`, bits 7-0 (R91). -/
def kkField (w : Word) : Byte := w.extractLsb' 0 8
/-- `nnn`, bits 11-0 (R91). -/
def nnnField (w : Word) : Addr := w.extractLsb' 0 12

/-- The triple of R95 for a word. -/
def discriminant (w : Word) : Discriminant := ⟨iField w, kkField w, nField w⟩

/-- Class 0x0, by the low byte; bits 11-8 are not examined (R96). -/
def decodeClass0 (w : Word) : Instr :=
  if kkField w = 0xE0#8 then .cls
  else if kkField w = 0xEE#8 then .ret
  else .sys (nnnField w)

/-- Class 0x8, by the low nibble (R97). -/
def decodeClass8 (w : Word) : Except Discriminant Instr :=
  match nField w with
  | 0x0#4 => .ok (.ldReg (xField w) (yField w))
  | 0x1#4 => .ok (.orReg (xField w) (yField w))
  | 0x2#4 => .ok (.andReg (xField w) (yField w))
  | 0x3#4 => .ok (.xorReg (xField w) (yField w))
  | 0x4#4 => .ok (.addReg (xField w) (yField w))
  | 0x5#4 => .ok (.subReg (xField w) (yField w))
  | 0x6#4 => .ok (.shrReg (xField w) (yField w))
  | 0x7#4 => .ok (.subnReg (xField w) (yField w))
  | 0xE#4 => .ok (.shlReg (xField w) (yField w))
  | _ => .error (discriminant w)

/-- Class 0xE, by the low byte (R98). -/
def decodeClassE (w : Word) : Except Discriminant Instr :=
  match kkField w with
  | 0x9E#8 => .ok (.skp (xField w))
  | 0xA1#8 => .ok (.sknp (xField w))
  | _ => .error (discriminant w)

/-- Class 0xF, by the low byte (R99). -/
def decodeClassF (w : Word) : Except Discriminant Instr :=
  match kkField w with
  | 0x07#8 => .ok (.ldVxDt (xField w))
  | 0x0A#8 => .ok (.ldVxK (xField w))
  | 0x15#8 => .ok (.ldDtVx (xField w))
  | 0x18#8 => .ok (.ldStVx (xField w))
  | 0x1E#8 => .ok (.addIVx (xField w))
  | 0x29#8 => .ok (.ldFVx (xField w))
  | 0x33#8 => .ok (.ldBVx (xField w))
  | 0x55#8 => .ok (.ldMemVx (xField w))
  | 0x65#8 => .ok (.ldVxMem (xField w))
  | _ => .error (discriminant w)

/-- The two-level dispatch of R94: the top nibble, then for classes 0, 8, E and F the second selector.
The last arm is class 0xF, the one nibble the others leave. -/
def decode (w : Word) : Except Discriminant Instr :=
  match iField w with
  | 0x0#4 => .ok (decodeClass0 w)
  | 0x1#4 => .ok (.jp (nnnField w))
  | 0x2#4 => .ok (.call (nnnField w))
  | 0x3#4 => .ok (.seByte (xField w) (kkField w))
  | 0x4#4 => .ok (.sneByte (xField w) (kkField w))
  | 0x5#4 => .ok (.seReg (xField w) (yField w))
  | 0x6#4 => .ok (.ldByte (xField w) (kkField w))
  | 0x7#4 => .ok (.addByte (xField w) (kkField w))
  | 0x8#4 => decodeClass8 w
  | 0x9#4 => .ok (.sneReg (xField w) (yField w))
  | 0xA#4 => .ok (.ldI (nnnField w))
  | 0xB#4 => .ok (.jpV0 (nnnField w))
  | 0xC#4 => .ok (.rnd (xField w) (kkField w))
  | 0xD#4 => .ok (.drw (xField w) (yField w) (nField w))
  | 0xE#4 => decodeClassE w
  | _ => decodeClassF w

/-- A word from its two bytes, the first in memory the high one (R64). -/
def wordOfBytes (hi lo : Byte) : Word := hi ++ lo

/-- The byte of a word stored first, at the lower address (R64). -/
def highByte (w : Word) : Byte := w.extractLsb' 8 8

/-- The byte of a word stored second (R64). -/
def lowByte (w : Word) : Byte := w.extractLsb' 0 8

/-- Why a list of bytes gives no instruction. -/
inductive DecodeError where
  /-- fewer than the two bytes of a word are left -/
  | truncated
  /-- the word selects no row of the opcode map (R102) -/
  | illegal (d : Discriminant)
  deriving DecidableEq, Repr

/-- Decoding bytes as the hardware stores them: one instruction and the bytes after it. Every instruction
is two bytes (R90). -/
def decodeBytes : List Byte → Except DecodeError (Instr × List Byte)
  | hi :: lo :: rest =>
    match decode (wordOfBytes hi lo) with
    | .ok i => .ok (i, rest)
    | .error d => .error (.illegal d)
  | _ => .error .truncated

/-- The encoding of the opcode map (R101). A bit the instruction ignores (R103) is encoded as 0. -/
def encode : Instr → Word
  | .sys nnn => 0x0#4 ++ nnn
  | .cls => 0x00E0#16
  | .ret => 0x00EE#16
  | .jp nnn => 0x1#4 ++ nnn
  | .call nnn => 0x2#4 ++ nnn
  | .seByte x kk => 0x3#4 ++ x ++ kk
  | .sneByte x kk => 0x4#4 ++ x ++ kk
  | .seReg x y => 0x5#4 ++ x ++ y ++ 0x0#4
  | .ldByte x kk => 0x6#4 ++ x ++ kk
  | .addByte x kk => 0x7#4 ++ x ++ kk
  | .ldReg x y => 0x8#4 ++ x ++ y ++ 0x0#4
  | .orReg x y => 0x8#4 ++ x ++ y ++ 0x1#4
  | .andReg x y => 0x8#4 ++ x ++ y ++ 0x2#4
  | .xorReg x y => 0x8#4 ++ x ++ y ++ 0x3#4
  | .addReg x y => 0x8#4 ++ x ++ y ++ 0x4#4
  | .subReg x y => 0x8#4 ++ x ++ y ++ 0x5#4
  | .shrReg x y => 0x8#4 ++ x ++ y ++ 0x6#4
  | .subnReg x y => 0x8#4 ++ x ++ y ++ 0x7#4
  | .shlReg x y => 0x8#4 ++ x ++ y ++ 0xE#4
  | .sneReg x y => 0x9#4 ++ x ++ y ++ 0x0#4
  | .ldI nnn => 0xA#4 ++ nnn
  | .jpV0 nnn => 0xB#4 ++ nnn
  | .rnd x kk => 0xC#4 ++ x ++ kk
  | .drw x y n => 0xD#4 ++ x ++ y ++ n
  | .skp x => 0xE#4 ++ x ++ 0x9E#8
  | .sknp x => 0xE#4 ++ x ++ 0xA1#8
  | .ldVxDt x => 0xF#4 ++ x ++ 0x07#8
  | .ldVxK x => 0xF#4 ++ x ++ 0x0A#8
  | .ldDtVx x => 0xF#4 ++ x ++ 0x15#8
  | .ldStVx x => 0xF#4 ++ x ++ 0x18#8
  | .addIVx x => 0xF#4 ++ x ++ 0x1E#8
  | .ldFVx x => 0xF#4 ++ x ++ 0x29#8
  | .ldBVx x => 0xF#4 ++ x ++ 0x33#8
  | .ldMemVx x => 0xF#4 ++ x ++ 0x55#8
  | .ldVxMem x => 0xF#4 ++ x ++ 0x65#8

/-- The bytes of an instruction as memory holds them (R64). -/
def encodeBytes (i : Instr) : List Byte := [highByte (encode i), lowByte (encode i)]

/-- The row's `mask` in the opcode map: the bits that select the instruction (R101). -/
def Instr.mask : Instr → Word
  | .sys _ | .jp _ | .call _ | .ldI _ | .jpV0 _ => 0xF000#16
  | .cls | .ret => 0xF0FF#16
  | .seByte _ _ | .sneByte _ _ | .ldByte _ _ | .addByte _ _ | .rnd _ _ => 0xF000#16
  | .seReg _ _ | .sneReg _ _ | .drw _ _ _ => 0xF000#16
  | .ldReg _ _ | .orReg _ _ | .andReg _ _ | .xorReg _ _ | .addReg _ _ => 0xF00F#16
  | .subReg _ _ | .shrReg _ _ | .subnReg _ _ | .shlReg _ _ => 0xF00F#16
  | .skp _ | .sknp _ | .ldVxDt _ | .ldVxK _ | .ldDtVx _ | .ldStVx _ => 0xF0FF#16
  | .addIVx _ | .ldFVx _ | .ldBVx _ | .ldMemVx _ | .ldVxMem _ => 0xF0FF#16

/-- The row's `match` in the opcode map: the value of the selecting bits (R101). -/
def Instr.pattern : Instr → Word
  | .sys _ => 0x0000#16
  | .cls => 0x00E0#16
  | .ret => 0x00EE#16
  | .jp _ => 0x1000#16
  | .call _ => 0x2000#16
  | .seByte _ _ => 0x3000#16
  | .sneByte _ _ => 0x4000#16
  | .seReg _ _ => 0x5000#16
  | .ldByte _ _ => 0x6000#16
  | .addByte _ _ => 0x7000#16
  | .ldReg _ _ => 0x8000#16
  | .orReg _ _ => 0x8001#16
  | .andReg _ _ => 0x8002#16
  | .xorReg _ _ => 0x8003#16
  | .addReg _ _ => 0x8004#16
  | .subReg _ _ => 0x8005#16
  | .shrReg _ _ => 0x8006#16
  | .subnReg _ _ => 0x8007#16
  | .shlReg _ _ => 0x800E#16
  | .sneReg _ _ => 0x9000#16
  | .ldI _ => 0xA000#16
  | .jpV0 _ => 0xB000#16
  | .rnd _ _ => 0xC000#16
  | .drw _ _ _ => 0xD000#16
  | .skp _ => 0xE09E#16
  | .sknp _ => 0xE0A1#16
  | .ldVxDt _ => 0xF007#16
  | .ldVxK _ => 0xF00A#16
  | .ldDtVx _ => 0xF015#16
  | .ldStVx _ => 0xF018#16
  | .addIVx _ => 0xF01E#16
  | .ldFVx _ => 0xF029#16
  | .ldBVx _ => 0xF033#16
  | .ldMemVx _ => 0xF055#16
  | .ldVxMem _ => 0xF065#16

/-- The bits of the word the instruction ignores (R103): bits 11-8 of 00E0 and 00EE and the low nibble of
5xyN and 9xyN. (The `y` of 8xy6 and 8xyE is ignored by their meaning; the term keeps it.) -/
def Instr.ignored : Instr → Word
  | .cls | .ret => 0x0F00#16
  | .seReg _ _ | .sneReg _ _ => 0x000F#16
  | .sys _ | .jp _ | .call _ | .ldI _ | .jpV0 _ => 0x0000#16
  | .seByte _ _ | .sneByte _ _ | .ldByte _ _ | .addByte _ _ | .rnd _ _ => 0x0000#16
  | .ldReg _ _ | .orReg _ _ | .andReg _ _ | .xorReg _ _ | .addReg _ _ => 0x0000#16
  | .subReg _ _ | .shrReg _ _ | .subnReg _ _ | .shlReg _ _ | .drw _ _ _ => 0x0000#16
  | .skp _ | .sknp _ | .ldVxDt _ | .ldVxK _ | .ldDtVx _ | .ldStVx _ => 0x0000#16
  | .addIVx _ | .ldFVx _ | .ldBVx _ | .ldMemVx _ | .ldVxMem _ => 0x0000#16

/-- The instruction word given as a table word: bit 0 is the word's least significant bit, bits at and
above `nbits` are 0, and an instruction is one word (R90). -/
def tableWord (nbits w : Nat) : Word := BitVec.ofNat 16 (w % 2 ^ nbits)

/-- What the decoder reads from a table word laid out as memory holds it, high byte first (R64). -/
def decodeTableWord (nbits w : Nat) : Option Instr :=
  match decodeBytes [highByte (tableWord nbits w), lowByte (tableWord nbits w)] with
  | .ok (i, _) => some i
  | .error _ => none

end Sys2Proof
end

