-- ==== Sys2Proof/Machine/State.lean ====
section
/-! DEFINITION. The state of the core (R20), its output trace (R39), and the model's own fields for what R40
calls inputs and configuration. Plain data throughout. -/

namespace Sys2Proof.Machine

/-- Memory as the listed cells (address, byte): addresses strictly rising and below 4096, no cell equal to
what an unlisted address reads as, its construction value (R341). The operations are in Ops.lean. -/
abbrev Memory := List Host.Cell

/-- A fault with its information value, one constructor per code of R302. -/
inductive FaultCause where
  /-- 1 FETCH_RANGE, raised by every step when `PC` > 0xFFE (R122); info: `PC`. -/
  | fetchRange (pc : Word)
  /-- 2 DECODE, raised by every step whose word selects no instruction (R124); info: the discriminant and the word. -/
  | decode (d : Discriminant) (w : Word)
  /-- 3 MEM_READ_RANGE, raised by Dxyn and Fx65 (R63); info: the lowest out-of-range address. -/
  | memReadRange (addr : Nat)
  /-- 4 MEM_WRITE_RANGE, raised by Fx33 and Fx55 (R63); info: the lowest out-of-range address. -/
  | memWriteRange (addr : Nat)
  /-- 5 STACK_OVERFLOW, raised by 2nnn with `SP` = 16 (R182); info: `pc0`. -/
  | stackOverflow (pc0 : Word)
  /-- 6 STACK_UNDERFLOW, raised by 00EE with `SP` = 0 (R181); info: `pc0`. -/
  | stackUnderflow (pc0 : Word)
  /-- 7 SYS_UNSUPPORTED, raised by 0nnn when `SYS_POLICY` = `FAULT` (R180); info: `nnn`. -/
  | sysUnsupported (nnn : Addr)
  /-- 8 KEY_RANGE, raised by Ex9E and ExA1 when `Vx` > 15 (R241, R242); info: `Vx`. -/
  | keyRange (vx : Byte)
  deriving DecidableEq, Repr

/-- A fault record: code and information in `cause`, and `pc` = `pc0`, where the faulting instruction was
fetched (R301). -/
structure FaultRecord where
  cause : FaultCause
  pc : Word
  deriving DecidableEq, Repr

/-- The events the core emits to its collaborators and its host (R326). -/
inductive Event where
  /-- 00E0 called `clear()` (R321) -/
  | clear
  /-- Dxyn called `set_pixel(x, y)` (R322) -/
  | setPixel (x : Fin 64) (y : Fin 32)
  /-- a frame called `paint()` (R323) -/
  | paint
  /-- Fx18 requested a tone of `v`/60 seconds (R253) -/
  | tone (v : Byte)
  /-- a fault was reported (R304) -/
  | halt (r : FaultRecord)
  deriving DecidableEq, Repr

/-- Where the frame driver of R128 stands: between frames, or inside a frame with `slotsLeft` of its
`SPEED` step slots still to come. -/
inductive Phase where
  | betweenFrames
  | inFrame (slotsLeft : Nat)
  deriving DecidableEq, Repr

/-- The machine's state. The fields down to `trace` are the spec's (R20, R39); those after it are the
model's own (logs 1 to 5 and 10). -/
structure State where
  /-- `MEM` (R60) -/
  mem : Memory
  /-- `V[0..15]` (R21) -/
  v : Vector Byte 16
  /-- the index register `I` (R24) -/
  i : Word
  /-- the program counter `PC` (R25) -/
  pc : Word
  /-- `SP`, the number of occupied stack slots, 0 to 16 (R27) -/
  sp : Fin 17
  /-- `STACK[0..15]`, return addresses (R27) -/
  stack : Vector Word 16
  /-- the delay timer `DT` (R29) -/
  dt : Byte
  /-- the sound timer `ST` (R30) -/
  st : Byte
  /-- the key-wait flag (R31) -/
  paused : Bool
  /-- the register the awaited key lands in (R32) -/
  pending : Nibble
  /-- the fault record of a halted core (R33) -/
  fault : Option FaultRecord
  /-- `FB`, the framebuffer: bit `x` of row `y` is `FB[y][x]` (R38) -/
  fb : Vector (BitVec 64) 32
  /-- the output trace, oldest event first (R39, R326) -/
  trace : List Event
  /-- the parameters of R8; no step changes them (log 1) -/
  cfg : Config
  /-- random bytes the environment will supply next, in order (R163; log 2) -/
  draws : List Byte
  /-- how many random bytes were drawn, the index of the free value `Config.freeDraw` (log 2) -/
  drawCount : Nat
  /-- answers the keyboard will give to the next `pressed` queries, in order (R240; log 3) -/
  answers : List Bool
  /-- how many `pressed` queries were made, the index of the free value `Config.freePressed` (log 3) -/
  askCount : Nat
  /-- what the host does next between frames, in order; after the list its moves are free values (R40, R327;
  log 4) -/
  host : List HostEvent
  /-- how many moves the host made, the index of the free value `Config.freeHost` (log 4) -/
  hostCount : Nat
  /-- the host was told that its last move, a load, was refused (R343; log 10) -/
  loadRefused : Bool
  /-- where the frame driver stands (R128; log 5) -/
  phase : Phase
  deriving DecidableEq, Repr

/-- The machine never stops with a fault of the model's: every fault of the spec (R302) is a NEXT state,
whose record is `State.fault` (R304), so this type has no constructor and nobody raises one (safe; log 7). -/
inductive Fault where
  deriving DecidableEq, Repr

/-- Why an instruction has no meaning. -/
inductive Refusal where
  /-- Raised by an arm of `exec` for an instruction that has no meaning yet; no arm does (safe: it stops). -/
  | notModelled (mnemonic : String)
  deriving DecidableEq, Repr

/-- The core right after construction with an empty ROM (R37, R340, R341): every unlisted byte reads as its
construction value. The model's own fields: R8's default parameters (log 1), nothing scripted (logs 2, 3, 4),
no load refused (log 10), between frames (log 5). -/
def State.reset : State where
  mem := []
  v := Vector.replicate 16 0#8
  i := 0#16
  pc := 0x200#16
  sp := 0
  stack := Vector.replicate 16 0#16
  dt := 0#8
  st := 0#8
  paused := false
  pending := 0#4
  fault := none
  fb := Vector.replicate 32 0#64
  trace := []
  cfg := Config.default
  draws := []
  drawCount := 0
  answers := []
  askCount := 0
  host := []
  hostCount := 0
  loadRefused := false
  phase := .betweenFrames

end Sys2Proof.Machine
end

