-- ==== Sys2Proof/Machine/Ops.lean ====
section
/-! DEFINITION. The named operations over the state: memory, registers, stack, faults, events, framebuffer,
inputs. A meaning touches the state through these alone. -/

namespace Sys2Proof.Machine

/-! ## Memory (20_memory.md) -/

/-- What byte `a` holds after construction, and so what an unlisted address reads as: glyph `d` of `FONT` at
`5·d`, 0 elsewhere (R69, R70, R341). -/
def initByte (font : Vector Byte 80) (a : Nat) : Byte :=
  if h : a < 80 then font[a] else 0#8

/-- The byte at `a`; `init` is what unlisted addresses read as. -/
def Memory.read (init : Nat → Byte) : Memory → Nat → Byte
  | [], a => init a
  | (k, b) :: m, a => if k = a then b else Memory.read init m a

/-- Memory with `b` at `a`, in canonical form: a byte equal to its construction value is not listed. -/
def Memory.write (init : Nat → Byte) : Memory → Nat → Byte → Memory
  | [], a, b => if b = init a then [] else [(a, b)]
  | (k, c) :: m, a, b =>
    if a < k then (if b = init a then (k, c) :: m else (a, b) :: (k, c) :: m)
    else if a = k then (if b = init a then m else (a, b) :: m)
    else (k, c) :: Memory.write init m a b

/-- The canonical form from address `lo` on: addresses strictly rising, below 4096, no byte equal to its
construction value. -/
def Memory.wfFrom (init : Nat → Byte) : Nat → Memory → Bool
  | _, [] => true
  | lo, (k, b) :: m => decide (lo ≤ k) && decide (k < 4096) && (b != init k) && Memory.wfFrom init (k + 1) m

/-- Memory is in canonical form. -/
def Memory.wf (init : Nat → Byte) (m : Memory) : Bool := Memory.wfFrom init 0 m

/-- The construction value of each byte under the machine's `FONT`. -/
def State.initAt (s : State) (a : Nat) : Byte := initByte s.cfg.font a

/-- `MEM[a]`. The range check is in `State.loadSpan`. -/
def State.peek (s : State) (a : Nat) : Byte := Memory.read s.initAt s.mem a

/-- `MEM[a] <- b`. The range check is in `State.storeSpan`. -/
def State.poke (s : State) (a : Nat) (b : Byte) : State :=
  { s with mem := Memory.write s.initAt s.mem a b }

/-- `n` bytes from `a` upward, in increasing address order (R67). -/
def State.peeks (s : State) : Nat → Nat → List Byte
  | _, 0 => []
  | a, n + 1 => s.peek a :: State.peeks s (a + 1) n

/-- The bytes stored from `a` upward, in increasing address order (R67). -/
def State.pokes : State → Nat → List Byte → State
  | s, _, [] => s
  | s, a, b :: bs => State.pokes (s.poke a b) (a + 1) bs

/-- The lowest out-of-range address of an access to `n` bytes (`n` > 0) from `base`, an unbounded integer;
`none` when the last byte is at most 0xFFF (R63, R206). -/
def outOfRange (base n : Nat) : Option Nat :=
  if base + n - 1 > 0xFFF then some (max base 0x1000) else none

/-- A read of `n` > 0 bytes from `a`: the whole span is checked first (R206). With `n` = 1 this is
`MemRead(a, 1)` (R61). -/
def State.loadSpan (s : State) (a n : Nat) : Except FaultCause (List Byte) :=
  match outOfRange a n with
  | some bad => .error (.memReadRange bad)
  | none => .ok (s.peeks a n)

/-- A write of the bytes `bs` (at least one) from `a`: the whole span is checked before any byte is written
(R206, R304). With one byte this is `MemWrite(a, 1, b)` (R62). -/
def State.storeSpan (s : State) (a : Nat) (bs : List Byte) : Except FaultCause State :=
  match outOfRange a bs.length with
  | some bad => .error (.memWriteRange bad)
  | none => .ok (s.pokes a bs)

/-- FETCH: the big-endian word at `PC`, which needs `PC` ≤ 0xFFE (R64, R65, R122). -/
def State.fetchWord (s : State) : Except FaultCause Word :=
  if s.pc.toNat > 0xFFE then .error (.fetchRange s.pc)
  else .ok (wordOfBytes (s.peek s.pc.toNat) (s.peek (s.pc.toNat + 1)))

/-! ## Registers (10_state.md) -/

/-- `V[r]` (R21). -/
def State.getV (s : State) (r : Nibble) : Byte := s.v[r.toNat]'r.isLt

/-- `V[r] <- b` (R21). -/
def State.setV (s : State) (r : Nibble) (b : Byte) : State :=
  { s with v := s.v.set r.toNat b r.isLt }

/-- `I <- w` (R24). -/
def State.setI (s : State) (w : Word) : State := { s with i := w }

/-- `PC <- w` (R25). -/
def State.setPc (s : State) (w : Word) : State := { s with pc := w }

/-- `DT <- b` (R29). -/
def State.setDt (s : State) (b : Byte) : State := { s with dt := b }

/-- `ST <- b` (R30). -/
def State.setSt (s : State) (b : Byte) : State := { s with st := b }

/-- `V[0]` to `V[x]`, in order (R204). -/
def State.regsThrough (s : State) (x : Nibble) : List Byte := s.v.toList.take (x.toNat + 1)

/-- The bytes into `V[k]`, `V[k+1]` and so on, in order (R205). -/
def State.setRegsFrom : State → Nat → List Byte → State
  | s, _, [] => s
  | s, k, b :: bs => State.setRegsFrom (s.setV (BitVec.ofNat 4 k) b) (k + 1) bs

/-- ADVANCE: `PC <- PC + 2`, before the handler runs (R123). -/
def State.advance (s : State) : State := s.setPc (s.pc + 2#16)

/-- `pc0`, the address the running instruction was fetched from: `PC` is `pc0 + 2` while a meaning runs
(R25, R123; DEDUCED, log 8). -/
def State.pc0 (s : State) : Word := s.pc - 2#16

/-- A skip: 2 more onto the advanced `PC` when taken (R188). -/
def State.skipIf (s : State) (taken : Bool) : State :=
  if taken then s.setPc (s.pc + 2#16) else s

/-! ## The call stack (R27) -/

/-- `STACK[SP] <- w; SP <- SP + 1`; STACK_OVERFLOW when `SP` = 16. -/
def State.push (s : State) (w : Word) : Except FaultCause State :=
  if h : s.sp.val < 16 then
    .ok { s with stack := s.stack.set s.sp.val w h, sp := ⟨s.sp.val + 1, by omega⟩ }
  else .error (.stackOverflow s.pc0)

/-- `SP <- SP - 1; w <- STACK[SP]`; STACK_UNDERFLOW when `SP` = 0. The slot keeps its value (R28). -/
def State.pop (s : State) : Except FaultCause (Word × State) :=
  if h : 0 < s.sp.val then
    .ok (s.stack[s.sp.val - 1]'(by omega), { s with sp := ⟨s.sp.val - 1, by omega⟩ })
  else .error (.stackUnderflow s.pc0)

/-! ## Events and faults (60_exceptions.md) -/

/-- `emit e`: append to the output trace (R326). -/
def State.emit (s : State) (e : Event) : State := { s with trace := s.trace ++ [e] }

/-- The code of a fault (R302). -/
def FaultCause.code : FaultCause → Nat
  | .fetchRange _ => 1
  | .decode _ _ => 2
  | .memReadRange _ => 3
  | .memWriteRange _ => 4
  | .stackOverflow _ => 5
  | .stackUnderflow _ => 6
  | .sysUnsupported _ => 7
  | .keyRange _ => 8

/-- TAKING A FAULT, the one operation of R304: `PC <- pc0`, the record is kept, `Halt(record)` is emitted,
nothing else changes. There is no return from a fault (R305): the exits are `State.hostLoad` and
`State.hostReset`. -/
def State.raiseAt (s : State) (pc0 : Word) (c : FaultCause) : State :=
  ({ s with pc := pc0, fault := some ⟨c, pc0⟩ }).emit (.halt ⟨c, pc0⟩)

/-- `raise Fault` inside a meaning, where `PC` is `pc0 + 2` (R304). -/
def State.raise (s : State) (c : FaultCause) : State := s.raiseAt s.pc0 c

/-- The end of a meaning that may raise: its writes, or the fault alone taken from the state it began in, so
that no write of a faulting instruction survives (R304). -/
def State.finish (s : State) (r : Except FaultCause State) : Host.Outcome State Fault Refusal :=
  match r with
  | .ok t => .next t
  | .error c => .next (s.raise c)

/-! ## Construction, the only way out of HALTED (R305, R340 to R343) -/

/-- The cells a ROM image lists from `base` upward: its bytes, but those equal to their construction value
(R341, "copied verbatim"). -/
def romCells (init : Nat → Byte) : Nat → List Byte → Memory
  | _, [] => []
  | base, b :: bs =>
    if b = init base then romCells init (base + 1) bs else (base, b) :: romCells init (base + 1) bs

/-- Construction anew with a ROM of at most 3584 bytes (R340, R341): everything of the spec's state, the
trace included, is as after reset; parameters, inputs and the host's plans are not the core's and stay. -/
def State.construct (s : State) (rom : List Byte) : State :=
  { State.reset with
    mem := romCells s.initAt 0x200 rom
    cfg := s.cfg, draws := s.draws, drawCount := s.drawCount
    answers := s.answers, askCount := s.askCount, host := s.host, hostCount := s.hostCount }

/-- The host is told that its load was refused; the core's state is as before (R343; log 10). -/
def State.refuseLoad (s : State) : State := { s with loadRefused := true }

/-- `load(rom)`: construction anew, or the refusal alone for a ROM longer than 3584 bytes (R342, R343). -/
def State.hostLoad (s : State) (rom : List Byte) : State :=
  if rom.length ≤ 3584 then s.construct rom else s.refuseLoad

/-- `reset()`: construction with an empty ROM (R342). -/
def State.hostReset (s : State) : State := s.construct []

/-! ## The display collaborator (R38, R321, R322) -/

/-- `FB[y][x]`. -/
def State.pixel (s : State) (x : Fin 64) (y : Fin 32) : Bool := (s.fb[y.val]).getLsbD x.val

/-- `clear()`: every pixel off, `Clear` emitted (R321). -/
def State.clearDisplay (s : State) : State :=
  ({ s with fb := Vector.replicate 32 0#64 }).emit .clear

/-- The toggle of `set_pixel(x, y)`, with its event (R322). -/
def State.togglePixel (s : State) (x : Fin 64) (y : Fin 32) : State :=
  ({ s with fb := s.fb.set y.val (s.fb[y.val] ^^^ BitVec.twoPow 64 x.val) }).emit (.setPixel x y)

/-- `set_pixel(x, y)`: toggles the pixel and returns whether it became unset (R322). -/
def State.setPixel (s : State) (x : Fin 64) (y : Fin 32) : Bool × State :=
  (s.pixel x y, s.togglePixel x y)

/-! ## Inputs (R40) -/

/-- The next `draw_rand()`: the next scripted byte, else a free value (R163; log 2). -/
def State.nextDraw (s : State) : Byte := s.draws.headD (Config.freeDraw s.drawCount)

/-- The state after a draw: the next draw is another one (R163, "fresh at each execution"). -/
def State.drawn (s : State) : State := { s with draws := s.draws.tail, drawCount := s.drawCount + 1 }

/-- The keyboard's answer to the next query `pressed(k)`: the next scripted answer, else a free value
(R240, R324; log 3). -/
def State.nextPressed (s : State) (k : Nibble) : Bool :=
  s.answers.headD (Config.freePressed s.askCount k)

/-- The state after a query: the next query may be answered otherwise (R240, "keeps no copy"). -/
def State.asked (s : State) : State := { s with answers := s.answers.tail, askCount := s.askCount + 1 }

/-! ## Key wait (R31, R32) -/

/-- `pending <- x; paused <- 1` (R243). -/
def State.waitKey (s : State) (x : Nibble) : State := { s with pending := x, paused := true }

/-- `key_down(k)`: completes a key wait; otherwise no effect (R244). -/
def State.keyDown (s : State) (k : Nibble) : State :=
  if s.fault = none ∧ s.paused = true then
    { (s.setV s.pending (k.setWidth 8)) with paused := false }
  else s

/-! ## Timer unit (R310) -/

/-- A counter after one tick: never below zero. -/
def tickDown (b : Byte) : Byte := if 0 < b.toNat then b - 1#8 else b

/-- `TimerTick()` (R310). -/
def State.timerTick (s : State) : State := { s with dt := tickDown s.dt, st := tickDown s.st }

end Sys2Proof.Machine
end

