-- ==== Sys2Proof/Machine/Flags.lean ====
section
/-! DEFINITION. Results and flags of the arithmetic instructions (R157 to R162) and the order in which the two
are written (R150). Each takes the operand values latched before any write (R150 (a)). -/

namespace Sys2Proof.Machine

/-- `VF` as a register number (R22). -/
def vf : Nibble := 0xF#4

/-- A condition as the flag value 0 or 1. -/
def flagOf (c : Bool) : Byte := if c then 1#8 else 0#8

/-- 8xy4: the sum modulo 256 (R157). -/
def addResult (a b : Byte) : Byte := BitVec.ofNat 8 (a.toNat + b.toNat)

/-- 8xy4: 1 iff the raw sum exceeds 255 (R157). -/
def addFlag (a b : Byte) : Byte := flagOf (decide (a.toNat + b.toNat > 255))

/-- 8xy5: `max(a - b, 0)`, clamped, never wraps (R158). -/
def subResult (a b : Byte) : Byte := BitVec.ofNat 8 (a.toNat - b.toNat)

/-- 8xy5 and 8xy7: 1 iff the first operand is strictly greater (R158, R160). -/
def greaterFlag (a b : Byte) : Byte := flagOf (decide (a.toNat > b.toNat))

/-- 8xy7: `(b - a) mod 256`, wraps (R160). -/
def subnResult (a b : Byte) : Byte := b - a

/-- 8xy6: logical shift right by one (R159). -/
def shrResult (a : Byte) : Byte := a >>> 1

/-- 8xy6: bit 0 before the shift (R159). -/
def shrFlag (a : Byte) : Byte := a &&& 0x01#8

/-- 8xyE: shift left by one, modulo 256 (R161). -/
def shlResult (a : Byte) : Byte := a <<< 1

/-- 8xyE: bit 7 before the shift, as 0x00 or 0x80, or as 0 or 1, by `SHL_FLAG_FORM` (R161). -/
def shlFlag (form : ShlFlagForm) (a : Byte) : Byte :=
  match form with
  | .mask => a &&& 0x80#8
  | .bool => (a >>> 7) &&& 0x01#8

/-- `WriteResultAndFlag(x, r, f)` (R150 (b)). -/
def State.writeResultAndFlag (s : State) (x : Nibble) (r f : Byte) : State :=
  match s.cfg.vfDestOrder with
  | .flagLast => (s.setV x r).setV vf f
  | .resultLast => (s.setV vf f).setV x r

end Sys2Proof.Machine
end

