-- ==== Sys2Proof/Machine/Operands.lean ====
section
/-! DEFINITION. The operand forms: immediates (R93), the row count and pixels of a sprite (R221 to R223), the
decimal digits (R203), the glyph address (R202), the indexed jump target (R190), the key index (R240). -/

namespace Sys2Proof.Machine

/-- `zext_16(nnn)` (R93). -/
def zextAddr (nnn : Addr) : Word := nnn.setWidth 16

/-- `zext_16` of a register (R190, R201). -/
def zextByte (b : Byte) : Word := b.setWidth 16

/-- The target of Bnnn: `nnn + V0`, not reduced (R190). -/
def indexedTarget (nnn : Addr) (v0 : Byte) : Word := zextAddr nnn + zextByte v0

/-- `zext_16(Vx & 0x0F) * 5`, where the glyph of the low nibble starts (R202). -/
def glyphAddr (b : Byte) : Word := zextByte (b &&& 0x0F#8) * 5#16

/-- Hundreds, tens and ones of a byte (R203). -/
def bcdDigits (b : Byte) : List Byte :=
  [BitVec.ofNat 8 (b.toNat / 100), BitVec.ofNat 8 (b.toNat / 10 % 10), BitVec.ofNat 8 (b.toNat % 10)]

/-- The key index in a register, or KEY_RANGE when it is above 15 (R241, R242). -/
def keyIndex (b : Byte) : Except FaultCause Nibble :=
  if b.toNat > 0xF then .error (.keyRange b) else .ok (b.setWidth 4)

/-- The height of a sprite: `n`, or 16 when `n` = 0 (R221, R223). -/
def rowCount (n : Nibble) : Nat := if n = 0#4 then 16 else n.toNat

/-- The columns of a sprite row, left to right (R221). -/
def spriteColumns : List Nat := [0, 1, 2, 3, 4, 5, 6, 7]

/-- Pixel (`cx + c`, `y`), each axis reduced on its own (R222). -/
def wrapPixel (cx c y : Nat) : Fin 64 × Fin 32 :=
  (⟨(cx + c) % 64, Nat.mod_lt _ (by decide)⟩, ⟨y % 32, Nat.mod_lt _ (by decide)⟩)

/-- The pixels of one sprite row at (`cx`, `y`): its set bits, most significant first (R221). -/
def rowPixels (cx y : Nat) (b : Byte) : List (Fin 64 × Fin 32) :=
  (spriteColumns.filter fun c => b.getLsbD (7 - c)).map fun c => wrapPixel cx c y

/-- The pixels of a sprite whose first row is at (`cx`, `cy`): top to bottom (R221). -/
def spritePixels (cx : Nat) : Nat → List Byte → List (Fin 64 × Fin 32)
  | _, [] => []
  | cy, b :: bs => rowPixels cx cy b ++ spritePixels cx (cy + 1) bs

end Sys2Proof.Machine
end

