-- ==== Sys2Proof/Machine/Arith.lean ====
section
/-! DEFINITION. Register loads, arithmetic and logic (41_arith_logic.md): 6xkk 7xkk 8xy0-8xy7 8xyE Cxkk. The
state a meaning takes is the one ADVANCE leaves (R125). None of these can fault. -/

namespace Sys2Proof.Machine

/-- 6xkk (R151). -/
def execLdByte (x : Nibble) (kk : Byte) (s : State) : Host.Outcome State Fault Refusal :=
  .next (s.setV x kk)

/-- 7xkk: wraps, no flag (R152). -/
def execAddByte (x : Nibble) (kk : Byte) (s : State) : Host.Outcome State Fault Refusal :=
  .next (s.setV x (addResult (s.getV x) kk))

/-- 8xy0 (R153). -/
def execLdReg (x y : Nibble) (s : State) : Host.Outcome State Fault Refusal :=
  .next (s.setV x (s.getV y))

/-- 8xy1: no flag (R154). -/
def execOrReg (x y : Nibble) (s : State) : Host.Outcome State Fault Refusal :=
  .next (s.setV x (s.getV x ||| s.getV y))

/-- 8xy2: no flag (R155). -/
def execAndReg (x y : Nibble) (s : State) : Host.Outcome State Fault Refusal :=
  .next (s.setV x (s.getV x &&& s.getV y))

/-- 8xy3: no flag (R156). -/
def execXorReg (x y : Nibble) (s : State) : Host.Outcome State Fault Refusal :=
  .next (s.setV x (s.getV x ^^^ s.getV y))

/-- 8xy4: flag = carry (R157). -/
def execAddReg (x y : Nibble) (s : State) : Host.Outcome State Fault Refusal :=
  .next (s.writeResultAndFlag x (addResult (s.getV x) (s.getV y)) (addFlag (s.getV x) (s.getV y)))

/-- 8xy5: clamped at 0, flag = (Vx > Vy) (R158). -/
def execSubReg (x y : Nibble) (s : State) : Host.Outcome State Fault Refusal :=
  .next (s.writeResultAndFlag x (subResult (s.getV x) (s.getV y)) (greaterFlag (s.getV x) (s.getV y)))

/-- 8xy6: shifts `Vx`; `Vy` is neither read nor written (R159). -/
def execShrReg (x _y : Nibble) (s : State) : Host.Outcome State Fault Refusal :=
  .next (s.writeResultAndFlag x (shrResult (s.getV x)) (shrFlag (s.getV x)))

/-- 8xy7: wraps, flag = (Vy > Vx) (R160). -/
def execSubnReg (x y : Nibble) (s : State) : Host.Outcome State Fault Refusal :=
  .next (s.writeResultAndFlag x (subnResult (s.getV x) (s.getV y)) (greaterFlag (s.getV y) (s.getV x)))

/-- 8xyE: shifts `Vx`; `Vy` is ignored (R161). -/
def execShlReg (x _y : Nibble) (s : State) : Host.Outcome State Fault Refusal :=
  .next (s.writeResultAndFlag x (shlResult (s.getV x)) (shlFlag s.cfg.shlFlagForm (s.getV x)))

/-- Cxkk: a fresh draw and the mask (R163). -/
def execRnd (x : Nibble) (kk : Byte) (s : State) : Host.Outcome State Fault Refusal :=
  .next (s.drawn.setV x (s.nextDraw &&& kk))

end Sys2Proof.Machine
end

