-- ==== Sys2Proof/Machine/Control.lean ====
section
/-! DEFINITION. Control flow, call stack and system call (42_control_flow.md). On entry `PC` is `pc0 + 2`
(R123, R125). -/

namespace Sys2Proof.Machine

/-- 0nnn: SYS_UNSUPPORTED, or nothing, by `SYS_POLICY` (R180). -/
def execSys (nnn : Addr) (s : State) : Host.Outcome State Fault Refusal :=
  s.finish <|
    match s.cfg.sysPolicy with
    | .fault => .error (.sysUnsupported nnn)
    | .nop => .ok s

/-- 00EE: pop the return address into `PC`, unchecked (R181). -/
def execRet (s : State) : Host.Outcome State Fault Refusal :=
  s.finish (s.pop.map fun p => p.2.setPc p.1)

/-- 2nnn: push the advanced `PC`, then jump (R182). -/
def execCall (nnn : Addr) (s : State) : Host.Outcome State Fault Refusal :=
  s.finish ((s.push s.pc).map fun t => t.setPc (zextAddr nnn))

/-- 1nnn (R183). -/
def execJp (nnn : Addr) (s : State) : Host.Outcome State Fault Refusal :=
  .next (s.setPc (zextAddr nnn))

/-- 3xkk: skip if equal (R184). -/
def execSeByte (x : Nibble) (kk : Byte) (s : State) : Host.Outcome State Fault Refusal :=
  .next (s.skipIf (s.getV x == kk))

/-- 4xkk: skip if not equal (R185). -/
def execSneByte (x : Nibble) (kk : Byte) (s : State) : Host.Outcome State Fault Refusal :=
  .next (s.skipIf (s.getV x != kk))

/-- 5xy0: skip if equal (R186). -/
def execSeReg (x y : Nibble) (s : State) : Host.Outcome State Fault Refusal :=
  .next (s.skipIf (s.getV x == s.getV y))

/-- 9xy0: skip if not equal (R187). -/
def execSneReg (x y : Nibble) (s : State) : Host.Outcome State Fault Refusal :=
  .next (s.skipIf (s.getV x != s.getV y))

/-- Bnnn: always `V0`, no wrap (R190). -/
def execJpV0 (nnn : Addr) (s : State) : Host.Outcome State Fault Refusal :=
  .next (s.setPc (indexedTarget nnn (s.getV 0#4)))

end Sys2Proof.Machine
end

