-- ==== Sys2Proof/Machine/Display.lean ====
section
/-! DEFINITION. Display instructions (44_display.md). -/

namespace Sys2Proof.Machine

/-- 00E0 (R220). -/
def execCls (s : State) : Host.Outcome State Fault Refusal :=
  .next s.clearDisplay

/-- The toggles of a sprite in order, `VF` set to 1 at each collision (R221). -/
def State.drawPixels : State → List (Fin 64 × Fin 32) → State
  | s, [] => s
  | s, p :: ps =>
    let r := s.setPixel p.1 p.2
    State.drawPixels (if r.1 then r.2.setV vf 1#8 else r.2) ps

/-- Dxyn: the coordinates are latched before `VF` is cleared; the span is checked first (R221 to R223). -/
def execDrw (x y n : Nibble) (s : State) : Host.Outcome State Fault Refusal :=
  s.finish <| (s.loadSpan s.i.toNat (rowCount n)).map fun rows =>
    (s.setV vf 0#8).drawPixels (spritePixels (s.getV x).toNat (s.getV y).toNat rows)

end Sys2Proof.Machine
end

