-- ==== Sys2Proof/Machine/Input.lean ====
section
/-! DEFINITION. Input instructions (45_input.md). The key-down delivery that completes Fx0A is
`State.keyDown` (R244). -/

namespace Sys2Proof.Machine

/-- Ex9E: KEY_RANGE above 15, else one query, skip if pressed (R241). -/
def execSkp (x : Nibble) (s : State) : Host.Outcome State Fault Refusal :=
  s.finish ((keyIndex (s.getV x)).map fun k => s.asked.skipIf (s.nextPressed k))

/-- ExA1: KEY_RANGE above 15, else one query, skip if not pressed (R242). -/
def execSknp (x : Nibble) (s : State) : Host.Outcome State Fault Refusal :=
  s.finish ((keyIndex (s.getV x)).map fun k => s.asked.skipIf (!s.nextPressed k))

/-- Fx0A: enter the key wait; `Vx` is written when the key arrives (R243, R244). -/
def execLdVxK (x : Nibble) (s : State) : Host.Outcome State Fault Refusal :=
  .next (s.waitKey x)

end Sys2Proof.Machine
end

