-- ==== Sys2Proof/Machine/MemIndex.lean ====
section
/-! DEFINITION. Index register and memory instructions (43_memory_index.md). `I` is unchanged by every memory
instruction (R206). -/

namespace Sys2Proof.Machine

/-- Annn (R200). -/
def execLdI (nnn : Addr) (s : State) : Host.Outcome State Fault Refusal :=
  .next (s.setI (zextAddr nnn))

/-- Fx1E: modulo 65536, no flag (R201). -/
def execAddIVx (x : Nibble) (s : State) : Host.Outcome State Fault Refusal :=
  .next (s.setI (s.i + zextByte (s.getV x)))

/-- Fx29: the glyph of the low nibble (R202). -/
def execLdFVx (x : Nibble) (s : State) : Host.Outcome State Fault Refusal :=
  .next (s.setI (glyphAddr (s.getV x)))

/-- Fx33: three decimal digits at `I` (R203). -/
def execLdBVx (x : Nibble) (s : State) : Host.Outcome State Fault Refusal :=
  s.finish (s.storeSpan s.i.toNat (bcdDigits (s.getV x)))

/-- Fx55: `V0..Vx` to memory from `I` (R204). -/
def execLdMemVx (x : Nibble) (s : State) : Host.Outcome State Fault Refusal :=
  s.finish (s.storeSpan s.i.toNat (s.regsThrough x))

/-- Fx65: `V0..Vx` from memory at `I` (R205). -/
def execLdVxMem (x : Nibble) (s : State) : Host.Outcome State Fault Refusal :=
  s.finish ((s.loadSpan s.i.toNat (x.toNat + 1)).map fun bs => s.setRegsFrom 0 bs)

end Sys2Proof.Machine
end

