-- ==== Sys2Proof/Machine/Timer.lean ====
section
/-! DEFINITION. Timer and sound instructions (46_timer_sound.md). -/

namespace Sys2Proof.Machine

/-- Fx07 (R250). -/
def execLdVxDt (x : Nibble) (s : State) : Host.Outcome State Fault Refusal :=
  .next (s.setV x s.dt)

/-- Fx15 (R251). -/
def execLdDtVx (x : Nibble) (s : State) : Host.Outcome State Fault Refusal :=
  .next (s.setDt (s.getV x))

/-- Fx18: a nonzero value also requests a tone (R252, R253). -/
def execLdStVx (x : Nibble) (s : State) : Host.Outcome State Fault Refusal :=
  let t := s.setSt (s.getV x)
  .next (if s.getV x = 0#8 then t else t.emit (.tone (s.getV x)))

end Sys2Proof.Machine
end

