-- ==== Sys2Proof/Machine/Frame.lean ====
section
/-! DEFINITION. The control states (R120), the instruction step (R121 to R127), the frame (R128 to R131, R133)
and what the host does between frames (R132, R327). -/

namespace Sys2Proof.Machine

/-- The control states of R120. -/
inductive Control where
  | run
  | waitKey
  | halted
  deriving DecidableEq, Repr

/-- The control state, derived from `fault` and `paused` (R120). -/
def State.control (s : State) : Control :=
  if s.fault.isSome then .halted else if s.paused then .waitKey else .run

/-- The outcome with `f` applied to its next state. -/
def mapNext (f : State → State) (o : Host.Outcome State Fault Refusal) :
    Host.Outcome State Fault Refusal :=
  match o with
  | .next s => .next (f s)
  | .fault r => .fault r
  | .refused r => .refused r

/-- `Step()`: FETCH, ADVANCE, DECODE, EXECUTE (R121 to R125). A fetch or decode fault is taken with
`pc0` = `PC`, before the ADVANCE counts (R304). -/
def instrStep (s : State) : Host.Outcome State Fault Refusal :=
  match s.fetchWord with
  | .error c => .next (s.raiseAt s.pc c)
  | .ok w =>
    match decode w with
    | .error d => .next (s.raiseAt s.pc (.decode d w))
    | .ok i => exec i s.advance

/-- One step slot of a frame: a step only in `RUN` (R121, R129); otherwise no change (R120). -/
def slot (s : State) : Host.Outcome State Fault Refusal :=
  match s.control with
  | .run => instrStep s
  | .waitKey => .next s
  | .halted => .next s

/-- The timer step of a frame: one tick, unless the core is paused and `PAUSE_HOLDS_TIMERS` holds (R130). -/
def State.timerStep (s : State) : State :=
  if s.paused = false ∨ s.cfg.pauseHoldsTimers = false then s.timerTick else s

/-- The end of a frame after its slots: the timer step and one `Paint` (R130, R131), neither of them when the
core is halted (R133). -/
def State.frameEnd (s : State) : State :=
  if s.fault.isSome then s else s.timerStep.emit .paint

/-- `n` step slots in a row (the loop of R128). -/
def runSlots : Nat → State → Host.Outcome State Fault Refusal
  | 0, s => .next s
  | n + 1, s =>
    match slot s with
    | .next t => runSlots n t
    | .fault r => .fault r
    | .refused r => .refused r

/-- `Cycle()` as one atomic transition, the whole frame of R128. `step` runs the same frame slot by slot. -/
def cycle (s : State) : Host.Outcome State Fault Refusal :=
  if s.fault.isSome then .next s else mapNext State.frameEnd (runSlots s.cfg.speed s)

/-- The host's next move: the first of its plan, or a free value when the plan is empty (R40, R327; log 4). -/
def State.nextHost (s : State) : HostEvent := s.host.headD (Config.freeHost s.hostCount)

/-- The state with that move taken: the next move is another one, and the host has no answer to it yet. -/
def State.hostTaken (s : State) : State :=
  { s with host := s.host.tail, hostCount := s.hostCount + 1, loadRefused := false }

/-- The place in the frame after a slot that left `n` more: a fault ends the frame at once (R133). -/
def State.afterSlot (n : Nat) (s : State) : State :=
  { s with phase := if s.fault.isSome then .betweenFrames else .inFrame n }

/-- The frame driver's next move inside a frame: the next slot, or after the last one the frame's end
(R128). -/
def frameMove (s : State) : Host.Outcome State Fault Refusal :=
  match s.phase with
  | .betweenFrames => .next s
  | .inFrame 0 => .next { s.frameEnd with phase := .betweenFrames }
  | .inFrame (n + 1) => mapNext (State.afterSlot n) (slot s)

/-- `Cycle()` begins: all `SPEED` slots are to come (R128). -/
def State.openFrame (s : State) : State := { s with phase := .inFrame s.cfg.speed }

/-- What happens between frames: the host's next move (R132). A `Cycle` of a halted core does nothing
(R133); any other begins a frame with its first move. -/
def hostMove (s : State) : Host.Outcome State Fault Refusal :=
  match s.nextHost with
  | .cycle => if s.fault.isSome then .next s.hostTaken else frameMove s.hostTaken.openFrame
  | .keyDown k => .next (s.hostTaken.keyDown k)
  | .load rom => .next (s.hostTaken.hostLoad rom)
  | .reset => .next s.hostTaken.hostReset

/-- One move of the machine: inside a frame the frame driver's, between frames the host's (log 5). -/
def move (s : State) : Host.Outcome State Fault Refusal :=
  match s.phase with
  | .betweenFrames => hostMove s
  | .inFrame _ => frameMove s

/-- A place in the frame with a step slot next: the present one if it has, else the start of a frame (of one
slot where `SPEED` = 0). -/
def State.slotPhase (s : State) : Phase :=
  match s.phase with
  | .inFrame (n + 1) => .inFrame (n + 1)
  | .inFrame 0 => .inFrame (max s.cfg.speed 1)
  | .betweenFrames => .inFrame (max s.cfg.speed 1)

/-- Where the next instruction is fetched: `PC`, or 0x200 for a `PC` no fetch accepts (R65). -/
def State.fetchPlace (s : State) : Nat := if s.pc.toNat ≤ 0xFFE then s.pc.toNat else 0x200

/-- The state with word `w` where the next instruction is fetched, in `RUN` with a step slot next, so that the
next `move` runs it. It stands for a program loaded from outside (log 9). -/
def State.withWord (s : State) (w : Word) : State :=
  { (s.poke s.fetchPlace (highByte w)).poke (s.fetchPlace + 1) (lowByte w) with
    pc := BitVec.ofNat 16 s.fetchPlace
    paused := false
    fault := none
    phase := s.slotPhase }

end Sys2Proof.Machine
end

