-- ==== Sys2Proof/Machine/Step.lean ====
section
/-! DEFINITION. The machine's step and the host's way to place an instruction. -/

namespace Sys2Proof.Machine

/-- One step of the machine: one step slot of a frame, the end of a frame, or one host event between frames
(R120, R128, R132; log 5). -/
def step (s : State) : Host.Outcome State Fault Refusal := move s

/-- The state whose next step fetches and runs the instruction of a table word (log 9). -/
def State.withFetchWord (s : State) (nbits w : Nat) : State := s.withWord (tableWord nbits w)

end Sys2Proof.Machine
end

