-- ==== Sys2Proof/Safety.lean ====
section
/-! DEFINITION. The terms claims are stated in: the running core, the invariants of the machine, what an
instruction may change (its frame), and which instruction may raise which fault (R302). -/

namespace Sys2Proof.Machine

/-- A run is safe while the core is not halted: no fault was taken (R120, R305). -/
def State.Safe (s : State) : Prop := s.fault = none

/-- The core is in `RUN` (R120). -/
def State.Running (s : State) : Prop := s.fault = none ∧ s.paused = false

/-! ## Invariants -/

/-- Memory is in canonical form. -/
def State.MemOk (s : State) : Prop := Memory.wf s.initAt s.mem = true

/-- The bounds of R26: `PC` is at most 0x10FE, the largest indexed target, and every return address on the
stack at most 0x1000, the largest advanced `PC`. -/
def State.PcOk (s : State) : Prop :=
  s.pc.toNat ≤ 0x10FE ∧ ∀ k : Fin 16, k.val < s.sp.val → (s.stack[k.val]).toNat ≤ 0x1000

/-- A halted core stands between frames at the recorded `pc0`, and its last event is the report of that
record (R301, R304, R133). -/
def State.HaltOk (s : State) : Prop :=
  ∀ r, s.fault = some r →
    r.pc = s.pc ∧ s.phase = .betweenFrames ∧ s.trace.getLast? = some (.halt r)

/-- The frame driver never has more slots to come than `SPEED` (R128). -/
def State.FrameOk (s : State) : Prop := ∀ n, s.phase = .inFrame n → n ≤ s.cfg.speed

/-- The invariants together: each is kept by every step from every state that meets it. -/
def State.Inv (s : State) : Prop := s.MemOk ∧ s.PcOk ∧ s.HaltOk ∧ s.FrameOk

/-! ## Frames -/

/-- A part of the state an instruction may write. -/
inductive Part where
  | v (r : Nibble)
  | i
  | pc
  /-- `SP` and `STACK` -/
  | stack
  | dt
  | st
  /-- `paused` and `pending` -/
  | keyWait
  | fault
  | fb
  | mem
  | trace
  /-- the environment's draws -/
  | draws
  /-- the keyboard's answers -/
  | answers
  deriving DecidableEq, Repr

/-- `t` with the host's side (its plan, its count of moves, what it was told) as in `s`. -/
def State.withHostOf (t s : State) : State :=
  { t with host := s.host, hostCount := s.hostCount, loadRefused := s.loadRefused }

/-- Nothing but the parts in `parts` differs from `s` to `t`. The parameters, the host's plan and the place in
the frame are no instruction's to change. -/
structure Unchanged (parts : List Part) (s t : State) : Prop where
  regs : ∀ r, Part.v r ∉ parts → t.getV r = s.getV r
  index : Part.i ∉ parts → t.i = s.i
  pc : Part.pc ∉ parts → t.pc = s.pc
  stack : Part.stack ∉ parts → t.sp = s.sp ∧ t.stack = s.stack
  dt : Part.dt ∉ parts → t.dt = s.dt
  st : Part.st ∉ parts → t.st = s.st
  keyWait : Part.keyWait ∉ parts → t.paused = s.paused ∧ t.pending = s.pending
  fault : Part.fault ∉ parts → t.fault = s.fault
  display : Part.fb ∉ parts → ∀ x y, t.pixel x y = s.pixel x y
  memory : Part.mem ∉ parts → ∀ a, t.peek a = s.peek a
  trace : Part.trace ∉ parts → t.trace = s.trace
  draws : Part.draws ∉ parts → t.draws = s.draws ∧ t.drawCount = s.drawCount
  answers : Part.answers ∉ parts → t.answers = s.answers ∧ t.askCount = s.askCount
  cfg : t.cfg = s.cfg
  host : t.host = s.host ∧ t.hostCount = s.hostCount ∧ t.loadRefused = s.loadRefused
  phase : t.phase = s.phase

/-! ## Faults -/

/-- The table of R302: which instruction raises which fault in its execute phase. FETCH_RANGE and DECODE are
the step's own. -/
def mayRaise (i : Instr) : FaultCause → Bool
  | .fetchRange _ => false
  | .decode _ _ => false
  | .memReadRange _ => match i with | .drw _ _ _ => true | .ldVxMem _ => true | _ => false
  | .memWriteRange _ => match i with | .ldBVx _ => true | .ldMemVx _ => true | _ => false
  | .stackOverflow _ => match i with | .call _ => true | _ => false
  | .stackUnderflow _ => match i with | .ret => true | _ => false
  | .sysUnsupported _ => match i with | .sys _ => true | _ => false
  | .keyRange _ => match i with | .skp _ => true | .sknp _ => true | _ => false

/-! ## Results -/

/-- `Vx` and `VF` after an instruction with result `r` and flag `f`: each its own when `x` is not 0xF, and by
`VF_DEST_ORDER` the flag or the result when it is (R150 (b)). -/
def ResultAndFlag (s t : State) (x : Nibble) (r f : Byte) : Prop :=
  (x ≠ vf → t.getV x = r ∧ t.getV vf = f) ∧
  (x = vf → t.getV vf = match s.cfg.vfDestOrder with | .flagLast => f | .resultLast => r)

/-- The sprite that DRW `x`, `y`, `n` draws in state `s` has a set bit on pixel (`px`, `py`): row `r` and column
`c` with `px` = (Vx + c) mod 64 and `py` = (Vy + r) mod 32 (R221, R222). -/
def SpriteCovers (s : State) (x y n : Nibble) (px : Fin 64) (py : Fin 32) : Prop :=
  ∃ r c, r < rowCount n ∧ c < 8 ∧ (s.peek (s.i.toNat + r)).getLsbD (7 - c) = true ∧
    px.val = ((s.getV x).toNat + c) % 64 ∧ py.val = ((s.getV y).toNat + r) % 32

/-- The `SetPixel` events of DRW `x`, `y`, `n`: row-major, most significant bit first (R222). -/
def spriteEvents (s : State) (x y n : Nibble) : List Event :=
  (List.range (rowCount n)).flatMap fun r =>
    ((List.range 8).filter fun c => (s.peek (s.i.toNat + r)).getLsbD (7 - c)).map fun c =>
      .setPixel ⟨((s.getV x).toNat + c) % 64, Nat.mod_lt _ (by decide)⟩
        ⟨((s.getV y).toNat + r) % 32, Nat.mod_lt _ (by decide)⟩

/-- Two states that differ at most in stack slots at and above `SP` (R28). -/
def StackAgree (s s' : State) : Prop :=
  s' = { s with stack := s'.stack } ∧ ∀ k : Fin 16, k.val < s.sp.val → s'.stack[k.val] = s.stack[k.val]

/-! ## Encodings -/

/-- The row of the opcode map with this mask and match (R101): every word that matches decodes to `mk` of its
fields. -/
def Row (mask pattern : Word) (mk : Word → Instr) : Prop :=
  ∀ w : Word, w &&& mask = pattern → decode w = .ok (mk w)

end Sys2Proof.Machine
end

