-- ==== Sys2Proof/Certificates/Slice0/Obligations.lean ====
section
/-! DEFINITION. The statements for the provers, taken from the numbered rules of spec/. In a statement about a
meaning, `s` is the state ADVANCE leaves, so `s.pc` is `pc0 + 2` (R123, R125). -/

open Sys2Proof Sys2Proof.Machine

/-! ## Encoding (30_encoding.md) -/

/-- Words written out from the spec's encodings, one or more per family, decode to what they stand for. -/
def Obligations.SpecWordsDecode : Prop :=
  decode 0x6005#16 = .ok (.ldByte 0x0#4 0x05#8) ∧
  decode 0x8014#16 = .ok (.addReg 0x0#4 0x1#4) ∧
  decode 0x2208#16 = .ok (.call 0x208#12) ∧
  decode 0x00EE#16 = .ok .ret ∧
  decode 0x01E0#16 = .ok .cls ∧
  decode 0x0123#16 = .ok (.sys 0x123#12) ∧
  decode 0x5127#16 = .ok (.seReg 0x1#4 0x2#4) ∧
  decode 0xA2F0#16 = .ok (.ldI 0x2F0#12) ∧
  decode 0xD015#16 = .ok (.drw 0x0#4 0x1#4 0x5#4) ∧
  decode 0xE19E#16 = .ok (.skp 0x1#4) ∧
  decode 0xF533#16 = .ok (.ldBVx 0x5#4) ∧
  decode 0xF218#16 = .ok (.ldStVx 0x2#4) ∧
  decode 0x8008#16 = .error ⟨0x8#4, 0x08#8, 0x8#4⟩ ∧
  decode 0xFFFF#16 = .error ⟨0xF#4, 0xFF#8, 0xF#4⟩

/-- Decoding what the encoder wrote gives the instruction back, every operand at every value. -/
def Obligations.DecodeOfEncode : Prop :=
  ∀ i : Instr, i.wf = true → decode (encode i) = .ok i

/-- Encoding what the decoder read gives the word back, but for the bits R103 says are ignored, which are
encoded as 0; and what the decoder reads is well formed. That the ignored bits are encoded as 0, and which SYS
terms are well formed, is the model's DESIGN CHOICE (log 12); that they are ignored is the spec's (D19 for bits
11-8 of 00E0 and 00EE, D30 for the low nibble of 5xyN and 9xyN). -/
def Obligations.EncodeOfDecode : Prop :=
  ∀ (w : Word) (i : Instr), decode w = .ok i → i.wf = true ∧ encode i = w &&& ~~~ i.ignored

/-- The opcode map of R101: a word with `w & mask = match` is the row's instruction, with the CLS and RET rows
tried before the SYS row (the choice of the 35 rows is the spec's decision D36). -/
def Obligations.OpcodeMapRows : Prop :=
  (∀ w : Word, w &&& 0xF000#16 = 0x0000#16 → w &&& 0xF0FF#16 ≠ 0x00E0#16 →
    w &&& 0xF0FF#16 ≠ 0x00EE#16 → decode w = .ok (.sys (nnnField w))) ∧
  Row 0xF0FF#16 0x00E0#16 (fun _ => .cls) ∧
  Row 0xF0FF#16 0x00EE#16 (fun _ => .ret) ∧
  Row 0xF000#16 0x1000#16 (fun w => .jp (nnnField w)) ∧
  Row 0xF000#16 0x2000#16 (fun w => .call (nnnField w)) ∧
  Row 0xF000#16 0x3000#16 (fun w => .seByte (xField w) (kkField w)) ∧
  Row 0xF000#16 0x4000#16 (fun w => .sneByte (xField w) (kkField w)) ∧
  Row 0xF000#16 0x5000#16 (fun w => .seReg (xField w) (yField w)) ∧
  Row 0xF000#16 0x6000#16 (fun w => .ldByte (xField w) (kkField w)) ∧
  Row 0xF000#16 0x7000#16 (fun w => .addByte (xField w) (kkField w)) ∧
  Row 0xF00F#16 0x8000#16 (fun w => .ldReg (xField w) (yField w)) ∧
  Row 0xF00F#16 0x8001#16 (fun w => .orReg (xField w) (yField w)) ∧
  Row 0xF00F#16 0x8002#16 (fun w => .andReg (xField w) (yField w)) ∧
  Row 0xF00F#16 0x8003#16 (fun w => .xorReg (xField w) (yField w)) ∧
  Row 0xF00F#16 0x8004#16 (fun w => .addReg (xField w) (yField w)) ∧
  Row 0xF00F#16 0x8005#16 (fun w => .subReg (xField w) (yField w)) ∧
  Row 0xF00F#16 0x8006#16 (fun w => .shrReg (xField w) (yField w)) ∧
  Row 0xF00F#16 0x8007#16 (fun w => .subnReg (xField w) (yField w)) ∧
  Row 0xF00F#16 0x800E#16 (fun w => .shlReg (xField w) (yField w)) ∧
  Row 0xF000#16 0x9000#16 (fun w => .sneReg (xField w) (yField w)) ∧
  Row 0xF000#16 0xA000#16 (fun w => .ldI (nnnField w)) ∧
  Row 0xF000#16 0xB000#16 (fun w => .jpV0 (nnnField w)) ∧
  Row 0xF000#16 0xC000#16 (fun w => .rnd (xField w) (kkField w)) ∧
  Row 0xF000#16 0xD000#16 (fun w => .drw (xField w) (yField w) (nField w)) ∧
  Row 0xF0FF#16 0xE09E#16 (fun w => .skp (xField w)) ∧
  Row 0xF0FF#16 0xE0A1#16 (fun w => .sknp (xField w)) ∧
  Row 0xF0FF#16 0xF007#16 (fun w => .ldVxDt (xField w)) ∧
  Row 0xF0FF#16 0xF00A#16 (fun w => .ldVxK (xField w)) ∧
  Row 0xF0FF#16 0xF015#16 (fun w => .ldDtVx (xField w)) ∧
  Row 0xF0FF#16 0xF018#16 (fun w => .ldStVx (xField w)) ∧
  Row 0xF0FF#16 0xF01E#16 (fun w => .addIVx (xField w)) ∧
  Row 0xF0FF#16 0xF029#16 (fun w => .ldFVx (xField w)) ∧
  Row 0xF0FF#16 0xF033#16 (fun w => .ldBVx (xField w)) ∧
  Row 0xF0FF#16 0xF055#16 (fun w => .ldMemVx (xField w)) ∧
  Row 0xF0FF#16 0xF065#16 (fun w => .ldVxMem (xField w))

/-- The illegal words of R102, and what a decode failure reports (R95). The sets of selectors are those of the
spec's own derivation in R102 from R96 to R100. -/
def Obligations.IllegalWordsAreExactlyThese : Prop :=
  ∀ (w : Word) (d : Discriminant), decode w = .error d ↔
    d = ⟨w.extractLsb' 12 4, w.extractLsb' 0 8, w.extractLsb' 0 4⟩ ∧
    ((w.extractLsb' 12 4 = 0x8#4 ∧
        w.extractLsb' 0 4 ∈ [0x8#4, 0x9#4, 0xA#4, 0xB#4, 0xC#4, 0xD#4, 0xF#4]) ∨
     (w.extractLsb' 12 4 = 0xE#4 ∧ w.extractLsb' 0 8 ∉ [0x9E#8, 0xA1#8]) ∨
     (w.extractLsb' 12 4 = 0xF#4 ∧
        w.extractLsb' 0 8 ∉ [0x07#8, 0x0A#8, 0x15#8, 0x18#8, 0x1E#8, 0x29#8, 0x33#8, 0x55#8, 0x65#8]))

/-! ## The step (40_execution_cycle.md) -/

/-- A slot of a running core fetches, advances `PC` by 2, decodes and runs: `step` is `exec` of the decoded
instruction on the advanced state, and the slot is counted. Between frames the same follows the host's
`Cycle`: that a `Cycle` call and the first move of its frame are one step is the model's DESIGN CHOICE (log 5),
and that the call is taken off the host's plan is the model's way to hold the host's moves (log 4). -/
def Obligations.StepRunsDecodedInstruction : Prop :=
  (∀ (s : State) (n : Nat) (w : Word) (i : Instr),
    s.phase = .inFrame (n + 1) → s.Running → s.fetchWord = .ok w → decode w = .ok i →
      step s = mapNext (State.afterSlot n) (exec i s.advance) ∧
      s.advance.pc.toNat = s.pc.toNat + 2 ∧ Unchanged [.pc] s s.advance) ∧
  (∀ s : State, s.phase = .betweenFrames → s.nextHost = .cycle → s.fault = none →
      step s = step s.hostTaken.openFrame ∧ s.hostTaken.openFrame.phase = .inFrame s.cfg.speed ∧
      Unchanged [] s { s.hostTaken.openFrame.withHostOf s with phase := s.phase })

/-- FETCH: the big-endian word at `PC`; a `PC` above 0xFFE raises FETCH_RANGE and changes nothing else. -/
def Obligations.FetchIsBigEndianAndChecked : Prop :=
  ∀ s : State,
    (s.pc.toNat ≤ 0xFFE → ∃ w, s.fetchWord = .ok w ∧
      w.extractLsb' 8 8 = s.peek s.pc.toNat ∧ w.extractLsb' 0 8 = s.peek (s.pc.toNat + 1)) ∧
    (∀ n, s.pc.toNat > 0xFFE → s.phase = .inFrame (n + 1) → s.Running →
      ∃ t r, step s = .next t ∧ t.fault = some r ∧ r.cause = .fetchRange s.pc ∧
        Unchanged [.fault, .trace] s { t with phase := s.phase })

/-- DECODE: a word that selects no instruction raises DECODE with the three discriminant fields (R124) and is
never a no-op. That the record also holds the word is the info column of R302 (the spec's decisions D17 and D34),
and that nothing else changes is the precision of faults (the spec's decision D16). -/
def Obligations.DecodeFailureIsAFault : Prop :=
  ∀ (s : State) (n : Nat) (w : Word) (d : Discriminant),
    s.phase = .inFrame (n + 1) → s.Running → s.fetchWord = .ok w → decode w = .error d →
      ∃ t r, step s = .next t ∧ t.fault = some r ∧
        r.cause = .decode ⟨w.extractLsb' 12 4, w.extractLsb' 0 8, w.extractLsb' 0 4⟩ w ∧
        Unchanged [.fault, .trace] s { t with phase := s.phase }

/-- The outcomes of an instruction step: `RUN`, `WAIT_KEY` exactly for Fx0A, or `HALTED`. That every step of the
machine, host moves and frame ends included, answers a next state is the model's: a fault of the spec is a next
state (log 7, DEDUCED), and what one step is is a DESIGN CHOICE (log 5). -/
def Obligations.OutcomesOfAStep : Prop :=
  (∀ s : State, s.Running → ∃ t, instrStep s = .next t ∧
    (t.control = .run ∨ t.control = .waitKey ∨ t.control = .halted) ∧
    (t.control = .waitKey ↔ ∃ w x, s.fetchWord = .ok w ∧ decode w = .ok (.ldVxK x))) ∧
  ∀ s : State, ∃ t, step s = .next t

/-- A slot of a paused core runs nothing (R129 with the spec's decision D29): the slot is counted. -/
def Obligations.PausedSlotsAreIdle : Prop :=
  ∀ (s : State) (n : Nat), s.phase = .inFrame (n + 1) → s.fault = none → s.paused = true →
    step s = .next { s with phase := .inFrame n }

/-! ## Faults (60_exceptions.md) -/

/-- Taking a fault inside a meaning: `PC` back at `pc0`, the record kept, `Halt` emitted, nothing else
(the precision of the spec's decision D16). -/
def Obligations.FaultsArePrecise : Prop :=
  ∀ (s : State) (c : FaultCause),
    (s.raise c).pc = s.pc - 2#16 ∧
    (s.raise c).fault = some ⟨c, s.pc - 2#16⟩ ∧
    (s.raise c).trace = s.trace ++ [.halt ⟨c, s.pc - 2#16⟩] ∧
    Unchanged [.pc, .fault, .trace] s (s.raise c)

/-- Every instruction completes without a fault, or takes one of the faults the table of R302 gives it and
does nothing else (the spec's decisions D16 and D17). -/
def Obligations.ExecuteFaultsFollowTheTable : Prop :=
  ∀ (i : Instr) (s : State), ∃ t, exec i s = .next t ∧
    ((t.fault = s.fault ∧ ∀ r, Event.halt r ∈ t.trace → Event.halt r ∈ s.trace) ∨
     ∃ c, mayRaise i c = true ∧ t = s.raise c)

/-- A halted core between frames ignores `Cycle` and key-down: only the host's moves go on (the spec's
decision D16). -/
def Obligations.HaltedCoreIsInert : Prop :=
  ∀ (s : State), s.fault ≠ none → s.phase = .betweenFrames →
    (s.nextHost = .cycle ∨ ∃ k, s.nextHost = .keyDown k) → step s = .next s.hostTaken

/-- A halt ends only by a load that fits or a reset; a key wait ends only by these or by a key-down, always
between frames (R305, R329; the spec's decisions D16, D21 and D23). That a load fits up to 3584 bytes, and that a
larger one is refused and ends nothing, is R342 and R343 (the spec's decision D22). -/
def Obligations.OnlyTheseEventsEndAHaltOrAWait : Prop :=
  ∀ s t : State, step s = .next t →
    (s.fault ≠ none → t.fault = none → s.phase = .betweenFrames ∧
      (s.nextHost = .reset ∨ ∃ rom, s.nextHost = .load rom ∧ rom.length ≤ 3584)) ∧
    (s.paused = true → t.paused = false → s.phase = .betweenFrames ∧
      (s.nextHost = .reset ∨ (∃ rom, s.nextHost = .load rom ∧ rom.length ≤ 3584) ∨
       ∃ k, s.nextHost = .keyDown k ∧ s.fault = none))

/-! ## The frame -/

/-- Running `step` from a `Cycle` call reaches exactly the state of the whole frame of R128: after `SPEED` + 1
steps, or sooner when a fault ends the frame. The count of steps is that of the model's DESIGN CHOICE of what one
step is (log 5). -/
def Obligations.StepsOfAFrameAreItsCycle : Prop :=
  ∀ s t : State, s.phase = .betweenFrames → s.nextHost = .cycle → cycle s.hostTaken = .next t →
    ∃ k, k ≤ s.cfg.speed + 1 ∧ (t.fault = none → k = s.cfg.speed + 1) ∧
      Host.Core.run Sys2Proof.core k s = .next t

/-- A frame that does not end in `HALTED` emits exactly one `Paint`, as its last event, paused or not. -/
def Obligations.OnePaintPerFrame : Prop :=
  ∀ s t : State, cycle s = .next t → t.fault = none →
    t.trace.count .paint = s.trace.count .paint + 1 ∧ t.trace.getLast? = some .paint

/-- The end of a frame: the timers tick unless the core is paused and `PAUSE_HOLDS_TIMERS` holds (the spec's
parameter, decision D7), then one `Paint`; nothing else changes. -/
def Obligations.TimerStepOfAFrame : Prop :=
  ∀ s : State, s.phase = .inFrame 0 → s.fault = none → ∃ t, step s = .next t ∧
    t.phase = .betweenFrames ∧ t.trace = s.trace ++ [.paint] ∧
    Unchanged [.dt, .st, .trace] s { t with phase := s.phase } ∧
    (if s.paused = true ∧ s.cfg.pauseHoldsTimers = true then t.dt = s.dt ∧ t.st = s.st
      else t.dt.toNat = s.dt.toNat - 1 ∧ t.st.toNat = s.st.toNat - 1)

/-- The timer unit: `k` ticks take `k` off each timer, never below zero; nothing else happens. -/
def Obligations.TimersCountDownToZero : Prop :=
  ∀ (s : State) (k : Nat),
    (State.timerTick^[k] s).dt.toNat = s.dt.toNat - k ∧
    (State.timerTick^[k] s).st.toNat = s.st.toNat - k ∧
    Unchanged [.dt, .st] s (State.timerTick^[k] s)

/-- In a step slot `DT` changes only by an Fx15 and `ST` only by an Fx18: within a frame the timers stand
still otherwise. -/
def Obligations.TimersStandStillInSlots : Prop :=
  ∀ (s t : State) (n : Nat), s.phase = .inFrame (n + 1) → step s = .next t →
    (t.dt ≠ s.dt → ∃ w x, s.fetchWord = .ok w ∧ decode w = .ok (.ldDtVx x)) ∧
    (t.st ≠ s.st → ∃ w x, s.fetchWord = .ok w ∧ decode w = .ok (.ldStVx x))

/-! ## Host events, reset and load -/

/-- Key-down delivery: completes a key wait and changes only the awaited register and the wait; otherwise it
has no effect on the core (the spec's decision D23). -/
def Obligations.KeyDownCompletesTheWait : Prop :=
  ∀ (s : State) (k : Nibble), s.phase = .betweenFrames → s.nextHost = .keyDown k →
    (s.fault = none → s.paused = true → ∃ t, step s = .next t ∧
      (t.getV s.pending).toNat = k.toNat ∧ t.paused = false ∧ t.pending = s.pending ∧
      Unchanged [.v s.pending, .keyWait] s (t.withHostOf s)) ∧
    (s.fault ≠ none ∨ s.paused = false → step s = .next s.hostTaken)

/-- After construction every item of the state is zero, none or empty, `PC` is 0x200, and memory holds the
font and zeros. -/
def Obligations.ResetStateIsAsConstructed : Prop :=
  (∀ r, State.reset.getV r = 0#8) ∧ State.reset.i = 0#16 ∧ State.reset.pc = 0x200#16 ∧
  State.reset.sp.val = 0 ∧ (∀ k : Fin 16, State.reset.stack[k.val] = 0#16) ∧
  State.reset.dt = 0#8 ∧ State.reset.st = 0#8 ∧ State.reset.paused = false ∧
  State.reset.pending = 0#4 ∧ State.reset.fault = none ∧
  (∀ x y, State.reset.pixel x y = false) ∧ State.reset.trace = [] ∧ State.reset.control = .run ∧
  (∀ a, State.reset.peek a = if h : a < 80 then State.reset.cfg.font[a] else 0#8)

/-- `load(rom)` and `reset()` construct the core anew, with the ROM from 0x200, the font below and zeros
elsewhere (the spec's decision D21); a ROM over 3584 bytes is refused, which the host is told, and nothing else
changes (D22). The model's own: that the trace is emptied is DEDUCED, and that parameters, draws, answers and the
host's plan stay, and where the refusal is told, are DESIGN CHOICES (log 10); `MemOk` is the model's form of memory
(log 6). -/
def Obligations.LoadAndResetConstructAnew : Prop :=
  ∀ (s : State) (rom : List Byte), s.phase = .betweenFrames →
    (s.nextHost = .load rom ∨ s.nextHost = .reset ∧ rom = []) →
    (3584 < rom.length → step s = .next { s.hostTaken with loadRefused := true }) ∧
    (rom.length ≤ 3584 → ∃ t, step s = .next t ∧
      t = { State.reset with
              mem := t.mem, cfg := s.cfg, draws := s.draws, drawCount := s.drawCount
              answers := s.answers, askCount := s.askCount
              host := s.host.tail, hostCount := s.hostCount + 1 } ∧
      t.MemOk ∧
      (∀ k (h : k < rom.length), t.peek (0x200 + k) = rom[k]) ∧
      (∀ a (h : a < 80), t.peek a = s.cfg.font[a]) ∧
      (∀ a, 80 ≤ a → (a < 0x200 ∨ 0x200 + rom.length ≤ a) → t.peek a = 0#8))

/-! ## Memory (20_memory.md) -/

/-- `MemRead(a, 1)` and `MemWrite(a, 1, v)`: the byte, or the range fault above 0xFFF (R61, R62); a write changes
its byte alone. That memory is canonical, before and after the write, is the model's own form of memory, a DESIGN
CHOICE (log 6). -/
def Obligations.ByteReadsAndWrites : Prop :=
  ∀ (s : State) (a : Nat) (b : Byte), s.MemOk →
    (a ≤ 0xFFF → s.loadSpan a 1 = .ok [s.peek a] ∧
      ∃ t, s.storeSpan a [b] = .ok t ∧ t.peek a = b ∧ (∀ c, c ≠ a → t.peek c = s.peek c) ∧
        Unchanged [.mem] s t ∧ t.MemOk) ∧
    (a > 0xFFF → s.loadSpan a 1 = .error (.memReadRange a) ∧
      s.storeSpan a [b] = .error (.memWriteRange a))

/-- A fetch sees what Fx55 stored, at once: the word at `I + k` is `V[k]` and `V[k+1]` (R77 with the spec's
decision D27). -/
def Obligations.FetchSeesStoredBytes : Prop :=
  ∀ (s t : State) (x : Nibble) (k : Nat), s.MemOk → s.i.toNat + x.toNat ≤ 0xFFF → k < x.toNat →
    exec (.ldMemVx x) s = .next t →
      ({ t with pc := BitVec.ofNat 16 (s.i.toNat + k) }).fetchWord =
        .ok (s.getV (BitVec.ofNat 4 k) ++ s.getV (BitVec.ofNat 4 (k + 1)))

/-! ## Invariants -/

/-- The state after reset meets every invariant: canonical memory, the model's own form (log 6, DESIGN CHOICE); `PC`
and return addresses within the bounds the spec derives in R26; no halted core out of step with its record, which
holds since there is no fault; and no more slots to come than `SPEED`, a bound on the model's own field (log 5,
DESIGN CHOICE). -/
def Obligations.ResetMeetsInvariants : Prop := State.reset.Inv

/-- Every step keeps memory in canonical form (the model's own form of memory, log 6). -/
def Obligations.StepKeepsMemoryForm : Prop :=
  ∀ s t : State, s.MemOk → step s = .next t → t.MemOk

/-- Every step keeps `PC` at most 0x10FE and the return addresses at most 0x1000 (R26, the spec's
derivation): no computation on `PC` overflows. -/
def Obligations.StepKeepsPcBounds : Prop :=
  ∀ s t : State, s.PcOk → step s = .next t → t.PcOk

/-- Every step keeps a halted core's record, `PC` and report in agreement (R301, R304 with the spec's decisions
D16 and D34). That a halted core stands between frames is said through the model's own field (log 5). -/
def Obligations.StepKeepsHaltRecord : Prop :=
  ∀ s t : State, s.HaltOk → step s = .next t → t.HaltOk

/-- Every step keeps the slots to come at most `SPEED`, and no step changes the parameters (both are the model's
own fields, logs 5 and 1). -/
def Obligations.StepKeepsFrameBound : Prop :=
  ∀ s t : State, s.FrameOk → step s = .next t → t.FrameOk ∧ t.cfg = s.cfg

/-! ## Register loads, arithmetic and logic (41_arith_logic.md) -/

/-- 6xkk and 8xy0: the register takes the value; nothing else changes, `VF` included. -/
def Obligations.LoadsWriteOneRegister : Prop :=
  Row 0xF000#16 0x6000#16 (fun w => .ldByte (xField w) (kkField w)) ∧
  Row 0xF00F#16 0x8000#16 (fun w => .ldReg (xField w) (yField w)) ∧
  ∀ (s : State) (x y : Nibble) (kk : Byte),
    (∃ t, exec (.ldByte x kk) s = .next t ∧ t.getV x = kk ∧ Unchanged [.v x] s t) ∧
    (∃ t, exec (.ldReg x y) s = .next t ∧ t.getV x = s.getV y ∧ Unchanged [.v x] s t)

/-- 7xkk: the sum modulo 256, no flag. -/
def Obligations.AddImmediateWrapsWithoutFlag : Prop :=
  Row 0xF000#16 0x7000#16 (fun w => .addByte (xField w) (kkField w)) ∧
  ∀ (s : State) (x : Nibble) (kk : Byte),
    ∃ t, exec (.addByte x kk) s = .next t ∧
      (t.getV x).toNat = ((s.getV x).toNat + kk.toNat) % 256 ∧ Unchanged [.v x] s t

/-- 8xy1, 8xy2, 8xy3: bit by bit, no flag. -/
def Obligations.LogicIsBitwiseWithoutFlag : Prop :=
  Row 0xF00F#16 0x8001#16 (fun w => .orReg (xField w) (yField w)) ∧
  Row 0xF00F#16 0x8002#16 (fun w => .andReg (xField w) (yField w)) ∧
  Row 0xF00F#16 0x8003#16 (fun w => .xorReg (xField w) (yField w)) ∧
  ∀ (s : State) (x y : Nibble),
    (∃ t, exec (.orReg x y) s = .next t ∧ Unchanged [.v x] s t ∧
      ∀ k, k < 8 → (t.getV x).getLsbD k = ((s.getV x).getLsbD k || (s.getV y).getLsbD k)) ∧
    (∃ t, exec (.andReg x y) s = .next t ∧ Unchanged [.v x] s t ∧
      ∀ k, k < 8 → (t.getV x).getLsbD k = ((s.getV x).getLsbD k && (s.getV y).getLsbD k)) ∧
    (∃ t, exec (.xorReg x y) s = .next t ∧ Unchanged [.v x] s t ∧
      ∀ k, k < 8 → (t.getV x).getLsbD k = ((s.getV x).getLsbD k ^^ (s.getV y).getLsbD k))

/-- 8xy4: the sum modulo 256, `VF` = 1 iff the raw sum exceeds 255. -/
def Obligations.AddSetsCarry : Prop :=
  Row 0xF00F#16 0x8004#16 (fun w => .addReg (xField w) (yField w)) ∧
  ∀ (s : State) (x y : Nibble), ∃ t r f, exec (.addReg x y) s = .next t ∧
    ResultAndFlag s t x r f ∧ Unchanged [.v x, .v vf] s t ∧
    r.toNat = ((s.getV x).toNat + (s.getV y).toNat) % 256 ∧
    f = if (s.getV x).toNat + (s.getV y).toNat > 255 then 1#8 else 0#8

/-- 8xy5: clamped at 0, `VF` = 1 iff `Vx` > `Vy` strictly. -/
def Obligations.SubClampsAtZero : Prop :=
  Row 0xF00F#16 0x8005#16 (fun w => .subReg (xField w) (yField w)) ∧
  ∀ (s : State) (x y : Nibble), ∃ t r f, exec (.subReg x y) s = .next t ∧
    ResultAndFlag s t x r f ∧ Unchanged [.v x, .v vf] s t ∧
    (r.toNat : Int) = max ((s.getV x).toNat - (s.getV y).toNat : Int) 0 ∧
    f = if (s.getV x).toNat > (s.getV y).toNat then 1#8 else 0#8

/-- 8xy6: `Vx` halved whatever `y`, `VF` = its old bit 0. -/
def Obligations.ShiftRightMovesBitZeroOut : Prop :=
  Row 0xF00F#16 0x8006#16 (fun w => .shrReg (xField w) (yField w)) ∧
  ∀ (s : State) (x y : Nibble), ∃ t r f, exec (.shrReg x y) s = .next t ∧
    ResultAndFlag s t x r f ∧ Unchanged [.v x, .v vf] s t ∧
    r.toNat = (s.getV x).toNat / 2 ∧ f.toNat = (s.getV x).toNat % 2

/-- 8xy7: `Vy - Vx` modulo 256, `VF` = 1 iff `Vy` > `Vx` strictly. -/
def Obligations.SubnWraps : Prop :=
  Row 0xF00F#16 0x8007#16 (fun w => .subnReg (xField w) (yField w)) ∧
  ∀ (s : State) (x y : Nibble), ∃ t r f, exec (.subnReg x y) s = .next t ∧
    ResultAndFlag s t x r f ∧ Unchanged [.v x, .v vf] s t ∧
    (r.toNat : Int) = ((s.getV y).toNat - (s.getV x).toNat : Int) % 256 ∧
    f = if (s.getV y).toNat > (s.getV x).toNat then 1#8 else 0#8

/-- 8xyE: `Vx` doubled modulo 256 whatever `y`; `VF` = its old bit 7, as 0x80 or 1 by `SHL_FLAG_FORM`. -/
def Obligations.ShiftLeftMovesBitSevenOut : Prop :=
  Row 0xF00F#16 0x800E#16 (fun w => .shlReg (xField w) (yField w)) ∧
  ∀ (s : State) (x y : Nibble), ∃ t r f, exec (.shlReg x y) s = .next t ∧
    ResultAndFlag s t x r f ∧ Unchanged [.v x, .v vf] s t ∧
    r.toNat = ((s.getV x).toNat * 2) % 256 ∧
    f = if (s.getV x).toNat < 128 then 0#8
        else match s.cfg.shlFlagForm with | .mask => 0x80#8 | .bool => 0x01#8

/-- Cxkk: the register takes the draw, a free value, masked by `kk`; the next draw is a fresh one (the spec's
decision D13; log 2). -/
def Obligations.RandomIsADrawMasked : Prop :=
  ∀ (s : State) (x : Nibble) (kk : Byte), ∃ t, exec (.rnd x kk) s = .next t ∧
    t.getV x = s.nextDraw &&& kk ∧ t.drawCount = s.drawCount + 1 ∧
    (∀ b bs, s.draws = b :: bs → s.nextDraw = b ∧ t.draws = bs) ∧
    (kk = 0x00#8 → t.getV x = 0#8) ∧ (kk = 0xFF#8 → t.getV x = s.nextDraw) ∧
    Unchanged [.v x, .draws] s t

/-! ## Control flow (42_control_flow.md) -/

/-- 0nnn: SYS_UNSUPPORTED, or nothing, by `SYS_POLICY` (the spec's open parameter, decision D6). -/
def Obligations.SysFollowsItsPolicy : Prop :=
  ∀ (s : State) (nnn : Addr),
    (s.cfg.sysPolicy = .nop → exec (.sys nnn) s = .next s) ∧
    (s.cfg.sysPolicy = .fault → exec (.sys nnn) s = .next (s.raise (.sysUnsupported nnn)))

/-- 2nnn: the advanced `PC` is pushed and `PC` is the target; with 16 addresses held STACK_OVERFLOW (the spec's
decision D5). -/
def Obligations.CallPushesAndJumps : Prop :=
  ∀ (s : State) (nnn : Addr),
    (s.sp.val < 16 → ∃ t, exec (.call nnn) s = .next t ∧
      t.pc.toNat = nnn.toNat ∧ t.sp.val = s.sp.val + 1 ∧
      (∀ k : Fin 16, t.stack[k.val] = if k.val = s.sp.val then s.pc else s.stack[k.val]) ∧
      Unchanged [.pc, .stack] s t) ∧
    (s.sp.val = 16 → exec (.call nnn) s = .next (s.raise (.stackOverflow (s.pc - 2#16))))

/-- 00EE: `PC` takes the top return address, the slot keeps it; with none held STACK_UNDERFLOW (the spec's
decisions D5 and D32). -/
def Obligations.RetPopsIntoPc : Prop :=
  ∀ s : State,
    (∀ k : Fin 16, s.sp.val = k.val + 1 → ∃ t, exec .ret s = .next t ∧
      t.pc = s.stack[k.val] ∧ t.sp.val = k.val ∧ t.stack = s.stack ∧ Unchanged [.pc, .stack] s t) ∧
    (s.sp.val = 0 → exec .ret s = .next (s.raise (.stackUnderflow (s.pc - 2#16))))

/-- A RET on the stack a CALL left returns to the instruction after the CALL, whatever ran between. -/
def Obligations.RetReturnsAfterItsCall : Prop :=
  ∀ (s t u : State) (nnn : Addr), s.sp.val < 16 → exec (.call nnn) s = .next t →
    u.sp = t.sp → u.stack = t.stack →
      ∃ v, exec .ret u = .next v ∧ v.pc = s.pc ∧ v.sp = s.sp

/-- 1nnn and Bnnn: `PC` is the target, never reduced modulo 4096, `V0` always the index; nothing else changes.
A target of Bnnn above 0xFFE is one the next fetch refuses with FETCH_RANGE. -/
def Obligations.JumpsSetPc : Prop :=
  Row 0xF000#16 0x1000#16 (fun w => .jp (nnnField w)) ∧
  Row 0xF000#16 0xB000#16 (fun w => .jpV0 (nnnField w)) ∧
  ∀ (s : State) (nnn : Addr),
    (∃ t, exec (.jp nnn) s = .next t ∧ t.pc.toNat = nnn.toNat ∧ Unchanged [.pc] s t) ∧
    (∃ t, exec (.jpV0 nnn) s = .next t ∧ t.pc.toNat = nnn.toNat + (s.getV 0#4).toNat ∧
      Unchanged [.pc] s t ∧
      (nnn.toNat + (s.getV 0#4).toNat > 0xFFE → t.fetchWord = .error (.fetchRange t.pc)))

/-- 3xkk, 4xkk, 5xy0, 9xy0: 2 more onto the advanced `PC` when the comparison holds; nothing else changes. -/
def Obligations.SkipsAddTwoWhenTaken : Prop :=
  Row 0xF000#16 0x3000#16 (fun w => .seByte (xField w) (kkField w)) ∧
  Row 0xF000#16 0x4000#16 (fun w => .sneByte (xField w) (kkField w)) ∧
  Row 0xF000#16 0x5000#16 (fun w => .seReg (xField w) (yField w)) ∧
  Row 0xF000#16 0x9000#16 (fun w => .sneReg (xField w) (yField w)) ∧
  ∀ (s : State) (x y : Nibble) (kk : Byte),
    (∃ t, exec (.seByte x kk) s = .next t ∧ Unchanged [.pc] s t ∧
      t.pc = if s.getV x = kk then s.pc + 2#16 else s.pc) ∧
    (∃ t, exec (.sneByte x kk) s = .next t ∧ Unchanged [.pc] s t ∧
      t.pc = if s.getV x = kk then s.pc else s.pc + 2#16) ∧
    (∃ t, exec (.seReg x y) s = .next t ∧ Unchanged [.pc] s t ∧
      t.pc = if s.getV x = s.getV y then s.pc + 2#16 else s.pc) ∧
    (∃ t, exec (.sneReg x y) s = .next t ∧ Unchanged [.pc] s t ∧
      t.pc = if s.getV x = s.getV y then s.pc else s.pc + 2#16)

/-! ## Index register and memory (43_memory_index.md) -/

/-- Annn and Fx29: `I` is the address, or 5 times the low nibble of `Vx`; nothing else changes. -/
def Obligations.IndexLoads : Prop :=
  Row 0xF000#16 0xA000#16 (fun w => .ldI (nnnField w)) ∧
  Row 0xF0FF#16 0xF029#16 (fun w => .ldFVx (xField w)) ∧
  ∀ (s : State) (x : Nibble) (nnn : Addr),
    (∃ t, exec (.ldI nnn) s = .next t ∧ t.i.toNat = nnn.toNat ∧ Unchanged [.i] s t) ∧
    (∃ t, exec (.ldFVx x) s = .next t ∧ t.i.toNat = (s.getV x).toNat % 16 * 5 ∧ Unchanged [.i] s t)

/-- Fx1E: the sum modulo 65536, no flag, no fault (the spec's decisions D8 and D10). -/
def Obligations.IndexAddWrapsWithoutFlag : Prop :=
  ∀ (s : State) (x : Nibble), ∃ t, exec (.addIVx x) s = .next t ∧
    t.i.toNat = (s.i.toNat + (s.getV x).toNat) % 65536 ∧ Unchanged [.i] s t

/-- Fx33: the three decimal digits at `I`, `I + 1`, `I + 2`; every other byte and `I` as before; out of range
MEM_WRITE_RANGE and nothing written. -/
def Obligations.BcdStoresThreeDigits : Prop :=
  Row 0xF0FF#16 0xF033#16 (fun w => .ldBVx (xField w)) ∧
  ∀ (s : State) (x : Nibble), s.MemOk →
    (s.i.toNat + 2 ≤ 0xFFF → ∃ t, exec (.ldBVx x) s = .next t ∧ Unchanged [.mem] s t ∧
      (t.peek s.i.toNat).toNat = (s.getV x).toNat / 100 ∧
      (t.peek (s.i.toNat + 1)).toNat = (s.getV x).toNat / 10 % 10 ∧
      (t.peek (s.i.toNat + 2)).toNat = (s.getV x).toNat % 10 ∧
      ∀ a, a < s.i.toNat ∨ s.i.toNat + 2 < a → t.peek a = s.peek a) ∧
    (s.i.toNat + 2 > 0xFFF →
      exec (.ldBVx x) s = .next (s.raise (.memWriteRange (max s.i.toNat 0x1000))))

/-- Fx55: `V0` to `Vx` to `I` to `I + x`, inclusive; every other byte and `I` as before; out of range
MEM_WRITE_RANGE and nothing written. -/
def Obligations.StoreRegistersInclusive : Prop :=
  Row 0xF0FF#16 0xF055#16 (fun w => .ldMemVx (xField w)) ∧
  ∀ (s : State) (x : Nibble), s.MemOk →
    (s.i.toNat + x.toNat ≤ 0xFFF → ∃ t, exec (.ldMemVx x) s = .next t ∧ Unchanged [.mem] s t ∧
      (∀ k, k ≤ x.toNat → t.peek (s.i.toNat + k) = s.getV (BitVec.ofNat 4 k)) ∧
      ∀ a, a < s.i.toNat ∨ s.i.toNat + x.toNat < a → t.peek a = s.peek a) ∧
    (s.i.toNat + x.toNat > 0xFFF →
      exec (.ldMemVx x) s = .next (s.raise (.memWriteRange (max s.i.toNat 0x1000))))

/-- Fx65: `V0` to `Vx` from `I` to `I + x`, inclusive; the registers above `Vx` and `I` as before; out of range
MEM_READ_RANGE and no register written. -/
def Obligations.LoadRegistersInclusive : Prop :=
  Row 0xF0FF#16 0xF065#16 (fun w => .ldVxMem (xField w)) ∧
  ∀ (s : State) (x : Nibble),
    (s.i.toNat + x.toNat ≤ 0xFFF → ∃ t, exec (.ldVxMem x) s = .next t ∧
      (∀ r : Nibble, r.toNat ≤ x.toNat → t.getV r = s.peek (s.i.toNat + r.toNat)) ∧
      Unchanged ((List.range (x.toNat + 1)).map fun k => .v (BitVec.ofNat 4 k)) s t) ∧
    (s.i.toNat + x.toNat > 0xFFF →
      exec (.ldVxMem x) s = .next (s.raise (.memReadRange (max s.i.toNat 0x1000))))

/-! ## Display (44_display.md) -/

/-- 00E0: every pixel off and `Clear` emitted; nothing else changes, `VF` included. -/
def Obligations.ClsClearsEveryPixel : Prop :=
  Row 0xF0FF#16 0x00E0#16 (fun _ => .cls) ∧
  ∀ s : State, ∃ t, exec .cls s = .next t ∧ (∀ x y, t.pixel x y = false) ∧
    t.trace = s.trace ++ [.clear] ∧ Unchanged [.fb, .trace] s t

/-- Dxyn: exactly the pixels under a set sprite bit are toggled, each axis wrapped; `VF` = 1 iff one of them
was set, else 0; one `SetPixel` per toggle, row-major and most significant bit first; nothing else changes;
out of range MEM_READ_RANGE and nothing drawn. -/
def Obligations.DrwTogglesTheSprite : Prop :=
  Row 0xF000#16 0xD000#16 (fun w => .drw (xField w) (yField w) (nField w)) ∧
  ∀ (s : State) (x y n : Nibble),
    (s.i.toNat + rowCount n - 1 ≤ 0xFFF → ∃ t, exec (.drw x y n) s = .next t ∧
      (∀ px py, SpriteCovers s x y n px py → t.pixel px py = !s.pixel px py) ∧
      (∀ px py, ¬ SpriteCovers s x y n px py → t.pixel px py = s.pixel px py) ∧
      ((∃ px py, SpriteCovers s x y n px py ∧ s.pixel px py = true) → t.getV vf = 1#8) ∧
      (¬ (∃ px py, SpriteCovers s x y n px py ∧ s.pixel px py = true) → t.getV vf = 0#8) ∧
      t.trace = s.trace ++ spriteEvents s x y n ∧
      Unchanged [.v vf, .fb, .trace] s t) ∧
    (s.i.toNat + rowCount n - 1 > 0xFFF →
      exec (.drw x y n) s = .next (s.raise (.memReadRange (max s.i.toNat 0x1000))))

/-- A second DRW with the same `I`, `Vx`, `Vy`, `n` and sprite bytes restores every pixel; it sets `VF` exactly
when the sprite covered a pixel that was off before the first. The clause on `VF` is DEDUCED from R221 and R222
against the sentence of R224 on `VF` (log 11), which is the next statement. -/
def Obligations.DrwTwiceRestoresTheDisplay : Prop :=
  ∀ (s t u w : State) (x y n : Nibble), s.i.toNat + rowCount n - 1 ≤ 0xFFF →
    exec (.drw x y n) s = .next t →
    u.fb = t.fb → u.i = s.i → u.getV x = s.getV x → u.getV y = s.getV y →
    (∀ r, r < rowCount n → u.peek (s.i.toNat + r) = s.peek (s.i.toNat + r)) →
    exec (.drw x y n) u = .next w →
      (∀ px py, w.pixel px py = s.pixel px py) ∧
      (w.getV vf = 1#8 ↔ ∃ px py, SpriteCovers s x y n px py ∧ s.pixel px py = false)

/-- The sentence of R224 that the second execution sets `VF` = 1 exactly when the sprite has a set bit. EXPECTED
TO FAIL: where every covered pixel was on before the first DRW, R221 gives `VF` = 0 after the second (log 11). -/
def Obligations.SecondDrwCollidesIffSpriteNonempty : Prop :=
  ∀ (s t u w : State) (x y n : Nibble), s.i.toNat + rowCount n - 1 ≤ 0xFFF →
    exec (.drw x y n) s = .next t →
    u.fb = t.fb → u.i = s.i → u.getV x = s.getV x → u.getV y = s.getV y →
    (∀ r, r < rowCount n → u.peek (s.i.toNat + r) = s.peek (s.i.toNat + r)) →
    exec (.drw x y n) u = .next w →
      (w.getV vf = 1#8 ↔ ∃ r c, r < rowCount n ∧ c < 8 ∧
        (s.peek (s.i.toNat + r)).getLsbD (7 - c) = true)

/-! ## Input, timers and sound (45_input.md, 46_timer_sound.md) -/

/-- Ex9E and ExA1: with a key index in `Vx` one query is made and the skip follows its answer, a free value;
above 15 KEY_RANGE and no query (the spec's decisions D12 and D14; log 3). -/
def Obligations.KeySkipsFollowTheAnswer : Prop :=
  ∀ (s : State) (x : Nibble),
    (∀ k : Nibble, (s.getV x).toNat = k.toNat →
      (∃ t, exec (.skp x) s = .next t ∧ Unchanged [.pc, .answers] s t ∧
        t.askCount = s.askCount + 1 ∧ t.answers = s.answers.tail ∧
        t.pc = if s.nextPressed k = true then s.pc + 2#16 else s.pc) ∧
      (∃ t, exec (.sknp x) s = .next t ∧ Unchanged [.pc, .answers] s t ∧
        t.askCount = s.askCount + 1 ∧ t.answers = s.answers.tail ∧
        t.pc = if s.nextPressed k = true then s.pc else s.pc + 2#16)) ∧
    ((s.getV x).toNat > 15 →
      exec (.skp x) s = .next (s.raise (.keyRange (s.getV x))) ∧
      exec (.sknp x) s = .next (s.raise (.keyRange (s.getV x))))

/-- Fx0A: the wait begins with `x` as the awaited register; `Vx` and everything else is unchanged. -/
def Obligations.KeyWaitBegins : Prop :=
  Row 0xF0FF#16 0xF00A#16 (fun w => .ldVxK (xField w)) ∧
  ∀ (s : State) (x : Nibble), ∃ t, exec (.ldVxK x) s = .next t ∧
    t.pending = x ∧ t.paused = true ∧ Unchanged [.keyWait] s t

/-- Fx07, Fx15, Fx18: the timers read and written; a nonzero sound timer requests a tone, a zero one does not,
and no tick emits anything (R250, R251, R252; R311 for the tick). -/
def Obligations.TimerInstructions : Prop :=
  Row 0xF0FF#16 0xF007#16 (fun w => .ldVxDt (xField w)) ∧
  Row 0xF0FF#16 0xF015#16 (fun w => .ldDtVx (xField w)) ∧
  Row 0xF0FF#16 0xF018#16 (fun w => .ldStVx (xField w)) ∧
  ∀ (s : State) (x : Nibble),
    (∃ t, exec (.ldVxDt x) s = .next t ∧ t.getV x = s.dt ∧ Unchanged [.v x] s t) ∧
    (∃ t, exec (.ldDtVx x) s = .next t ∧ t.dt = s.getV x ∧ Unchanged [.dt] s t) ∧
    (∃ t, exec (.ldStVx x) s = .next t ∧ t.st = s.getV x ∧ Unchanged [.st, .trace] s t ∧
      t.trace = if s.getV x = 0#8 then s.trace else s.trace ++ [.tone (s.getV x)]) ∧
    s.timerTick.trace = s.trace

/-! ## Rules about the whole machine -/

/-- Each part of the state has its writers and no others: `I`, the stack, the timers, the key wait, memory and
the framebuffer (R24, R28, R29, R30, R31, R38, R73); no instruction changes the parameters, the host's plan or
the place in the frame. -/
def Obligations.EachPartHasItsWriters : Prop :=
  ∀ (i : Instr) (s t : State), exec i s = .next t →
    (t.i ≠ s.i → (∃ nnn, i = .ldI nnn) ∨ (∃ x, i = .addIVx x) ∨ ∃ x, i = .ldFVx x) ∧
    ((t.sp ≠ s.sp ∨ t.stack ≠ s.stack) → (∃ nnn, i = .call nnn) ∨ i = .ret) ∧
    (t.dt ≠ s.dt → ∃ x, i = .ldDtVx x) ∧
    (t.st ≠ s.st → ∃ x, i = .ldStVx x) ∧
    ((t.paused ≠ s.paused ∨ t.pending ≠ s.pending) → ∃ x, i = .ldVxK x) ∧
    (t.mem ≠ s.mem → (∃ x, i = .ldBVx x) ∨ ∃ x, i = .ldMemVx x) ∧
    (t.fb ≠ s.fb → i = .cls ∨ ∃ x y n, i = .drw x y n) ∧
    t.cfg = s.cfg ∧ t.phase = s.phase ∧
    t.host = s.host ∧ t.hostCount = s.hostCount ∧ t.loadRefused = s.loadRefused

/-- Only the instructions R23 lists write a general register: `VF` as a flag by six of them, `Vx` by those that
name it, `V0` to `Vx` by Fx65. -/
def Obligations.GeneralRegisterWriters : Prop :=
  ∀ (i : Instr) (s t : State) (r : Nibble), exec i s = .next t → t.getV r ≠ s.getV r →
    (∃ kk, i = .ldByte r kk ∨ i = .addByte r kk ∨ i = .rnd r kk) ∨
    (∃ y, i = .ldReg r y ∨ i = .orReg r y ∨ i = .andReg r y ∨ i = .xorReg r y) ∨
    (∃ x y, (r = x ∨ r = vf) ∧ (i = .addReg x y ∨ i = .subReg x y ∨ i = .shrReg x y ∨
      i = .subnReg x y ∨ i = .shlReg x y)) ∨
    (∃ x y n, r = vf ∧ i = .drw x y n) ∨
    i = .ldVxDt r ∨
    (∃ x, r.toNat ≤ x.toNat ∧ i = .ldVxMem x)

/-- The output trace is read by no rule: whatever it holds, a step gives the same state otherwise. -/
def Obligations.TraceIsNotRead : Prop :=
  ∀ (s t : State) (tr : List Event), step s = .next t →
    ∃ u, step { s with trace := tr } = .next u ∧ { u with trace := t.trace } = t

/-- Stack slots at and above `SP` are unobservable: states that differ only there step to states that differ
only there (R28 with the spec's decision D32). -/
def Obligations.UnusedStackSlotsAreUnobservable : Prop :=
  ∀ s s' t : State, StackAgree s s' → step s = .next t →
    ∃ t', step s' = .next t' ∧ StackAgree t t'
end

