-- ==== Sys2Proof/Laws/Encoding.lean ====
section
/-! SUPPORT. The fields of a word built from its parts, and the top nibble a mask fixes. -/

namespace Sys2Proof

/-! ## Bits and fields of a word put together (R91) -/

section
variable (c x y n : Nibble) (kk : Byte) (nnn : Addr)

theorem getLsbD_nnn (k : Nat) :
    (c ++ nnn : Word).getLsbD k = if k < 12 then nnn.getLsbD k else c.getLsbD (k - 12) :=
  BitVec.getLsbD_append

theorem getLsbD_nibbles (k : Nat) :
    (c ++ x : Byte).getLsbD k = if k < 4 then x.getLsbD k else c.getLsbD (k - 4) :=
  BitVec.getLsbD_append

theorem getLsbD_kk (k : Nat) :
    (c ++ x ++ kk : Word).getLsbD k = if k < 8 then kk.getLsbD k else (c ++ x : Byte).getLsbD (k - 8) :=
  BitVec.getLsbD_append

theorem getLsbD_threeNibbles (k : Nat) :
    (c ++ x ++ y : Addr).getLsbD k = if k < 4 then y.getLsbD k else (c ++ x : Byte).getLsbD (k - 4) :=
  BitVec.getLsbD_append

theorem getLsbD_n (k : Nat) :
    (c ++ x ++ y ++ n : Word).getLsbD k =
      if k < 4 then n.getLsbD k else (c ++ x ++ y : Addr).getLsbD (k - 4) :=
  BitVec.getLsbD_append

theorem getLsbD_wordOfBytes (hi lo : Byte) (k : Nat) :
    (wordOfBytes hi lo).getLsbD k = if k < 8 then lo.getLsbD k else hi.getLsbD (k - 8) :=
  BitVec.getLsbD_append

@[simp] theorem iField_nnn : iField (c ++ nnn) = c := by
  apply BitVec.eq_of_getLsbD_eq
  intro k hk
  interval_cases k <;> simp only [iField, BitVec.getLsbD_extractLsb', getLsbD_nnn] <;> simp

@[simp] theorem nnnField_nnn : nnnField (c ++ nnn) = nnn := by
  apply BitVec.eq_of_getLsbD_eq
  intro k hk
  interval_cases k <;> simp only [nnnField, BitVec.getLsbD_extractLsb', getLsbD_nnn] <;> simp

@[simp] theorem kkField_nnn : kkField (c ++ nnn) = addrLow nnn := by
  apply BitVec.eq_of_getLsbD_eq
  intro k hk
  interval_cases k <;> simp only [kkField, addrLow, BitVec.getLsbD_extractLsb', getLsbD_nnn] <;> simp

@[simp] theorem iField_kk : iField (c ++ x ++ kk) = c := by
  apply BitVec.eq_of_getLsbD_eq
  intro k hk
  interval_cases k <;> simp only [iField, BitVec.getLsbD_extractLsb', getLsbD_kk, getLsbD_nibbles] <;> simp

@[simp] theorem xField_kk : xField (c ++ x ++ kk) = x := by
  apply BitVec.eq_of_getLsbD_eq
  intro k hk
  interval_cases k <;> simp only [xField, BitVec.getLsbD_extractLsb', getLsbD_kk, getLsbD_nibbles] <;> simp

@[simp] theorem kkField_kk : kkField (c ++ x ++ kk) = kk := by
  apply BitVec.eq_of_getLsbD_eq
  intro k hk
  interval_cases k <;> simp only [kkField, BitVec.getLsbD_extractLsb', getLsbD_kk, getLsbD_nibbles] <;> simp

@[simp] theorem iField_n : iField (c ++ x ++ y ++ n) = c := by
  apply BitVec.eq_of_getLsbD_eq
  intro k hk
  interval_cases k <;> simp only [iField, BitVec.getLsbD_extractLsb', getLsbD_n, getLsbD_threeNibbles, getLsbD_nibbles] <;> simp

@[simp] theorem xField_n : xField (c ++ x ++ y ++ n) = x := by
  apply BitVec.eq_of_getLsbD_eq
  intro k hk
  interval_cases k <;> simp only [xField, BitVec.getLsbD_extractLsb', getLsbD_n, getLsbD_threeNibbles, getLsbD_nibbles] <;> simp

@[simp] theorem yField_n : yField (c ++ x ++ y ++ n) = y := by
  apply BitVec.eq_of_getLsbD_eq
  intro k hk
  interval_cases k <;> simp only [yField, BitVec.getLsbD_extractLsb', getLsbD_n, getLsbD_threeNibbles, getLsbD_nibbles] <;> simp

@[simp] theorem nField_n : nField (c ++ x ++ y ++ n) = n := by
  apply BitVec.eq_of_getLsbD_eq
  intro k hk
  interval_cases k <;> simp only [nField, BitVec.getLsbD_extractLsb', getLsbD_n, getLsbD_threeNibbles, getLsbD_nibbles] <;> simp

end

/-! ## Bytes of a word (R64) -/

/-- The high byte of a word put together from two bytes (R64). -/
@[simp] theorem extractLsb'_high_wordOfBytes (hi lo : Byte) :
    (wordOfBytes hi lo).extractLsb' 8 8 = hi := by
  apply BitVec.eq_of_getLsbD_eq
  intro k hk
  interval_cases k <;> simp only [BitVec.getLsbD_extractLsb', getLsbD_wordOfBytes] <;> simp

/-- The low byte of a word put together from two bytes (R64). -/
@[simp] theorem extractLsb'_low_wordOfBytes (hi lo : Byte) :
    (wordOfBytes hi lo).extractLsb' 0 8 = lo := by
  apply BitVec.eq_of_getLsbD_eq
  intro k hk
  interval_cases k <;> simp only [BitVec.getLsbD_extractLsb', getLsbD_wordOfBytes] <;> simp

@[simp] theorem wordOfBytes_highByte_lowByte (w : Word) :
    wordOfBytes (highByte w) (lowByte w) = w := by
  apply BitVec.eq_of_getLsbD_eq
  intro k hk
  interval_cases k <;> simp only [getLsbD_wordOfBytes, highByte, lowByte, BitVec.getLsbD_extractLsb'] <;> simp

/-! ## What a mask and match fix (R101) -/

/-- A field inside the mask has the match's value. -/
theorem extractLsb'_of_and_eq {w mask pat : Word} (h : w &&& mask = pat) (lo len : Nat)
    (hm : mask.extractLsb' lo len = BitVec.allOnes len) :
    w.extractLsb' lo len = pat.extractLsb' lo len := by
  subst h
  apply BitVec.eq_of_getLsbD_eq
  intro k hk
  have := congrArg (fun b => b.getLsbD k) hm
  simp [hk] at this
  simp [BitVec.getLsbD_extractLsb', this]

/-- The top nibble, when the mask covers it. -/
theorem iField_of_and_eq {w mask pat : Word} (h : w &&& mask = pat) (hm : iField mask = 0xF#4) :
    iField w = iField pat := extractLsb'_of_and_eq h 12 4 hm

/-- The low byte, when the mask covers it. -/
theorem kkField_of_and_eq {w mask pat : Word} (h : w &&& mask = pat) (hm : kkField mask = 0xFF#8) :
    kkField w = kkField pat := extractLsb'_of_and_eq h 0 8 hm

/-- The low nibble, when the mask covers it. -/
theorem nField_of_and_eq {w mask pat : Word} (h : w &&& mask = pat) (hm : nField mask = 0xF#4) :
    nField w = nField pat := extractLsb'_of_and_eq h 0 4 hm

/-! ## What the masks of the opcode map leave of a word put together -/

section
variable (c x y n : Nibble) (kk : Byte) (nnn : Addr)

theorem and_F000_nnn : (c ++ nnn : Word) &&& 0xF000#16 = c ++ 0#12 := by
  apply BitVec.eq_of_getLsbD_eq
  intro k hk
  interval_cases k <;> simp only [BitVec.getLsbD_and, getLsbD_nnn] <;> simp

theorem and_F000_kk : (c ++ x ++ kk : Word) &&& 0xF000#16 = c ++ 0#4 ++ 0#8 := by
  apply BitVec.eq_of_getLsbD_eq
  intro k hk
  interval_cases k <;> simp only [BitVec.getLsbD_and, getLsbD_kk, getLsbD_nibbles] <;> simp

theorem and_F0FF_kk : (c ++ x ++ kk : Word) &&& 0xF0FF#16 = c ++ 0#4 ++ kk := by
  apply BitVec.eq_of_getLsbD_eq
  intro k hk
  interval_cases k <;> simp only [BitVec.getLsbD_and, getLsbD_kk, getLsbD_nibbles] <;> simp

theorem and_F000_n : (c ++ x ++ y ++ n : Word) &&& 0xF000#16 = c ++ 0#4 ++ 0#4 ++ 0#4 := by
  apply BitVec.eq_of_getLsbD_eq
  intro k hk
  interval_cases k <;>
    simp only [BitVec.getLsbD_and, getLsbD_n, getLsbD_threeNibbles, getLsbD_nibbles] <;> simp

theorem and_FFF0_n : (c ++ x ++ y ++ n : Word) &&& 0xFFF0#16 = c ++ x ++ y ++ 0#4 := by
  apply BitVec.eq_of_getLsbD_eq
  intro k hk
  interval_cases k <;>
    simp only [BitVec.getLsbD_and, getLsbD_n, getLsbD_threeNibbles, getLsbD_nibbles] <;> simp

theorem and_F00F_n : (c ++ x ++ y ++ n : Word) &&& 0xF00F#16 = c ++ 0#4 ++ 0#4 ++ n := by
  apply BitVec.eq_of_getLsbD_eq
  intro k hk
  interval_cases k <;>
    simp only [BitVec.getLsbD_and, getLsbD_n, getLsbD_threeNibbles, getLsbD_nibbles] <;> simp

end

/-- A mask of all bits changes nothing. -/
theorem and_FFFF (w : Word) : w &&& 0xFFFF#16 = w := by
  rw [show 0xFFFF#16 = BitVec.allOnes 16 by decide]
  exact BitVec.and_allOnes

/-! ## A word is made of its fields (R91) -/

theorem iField_append_nnnField (w : Word) : (iField w ++ nnnField w : Word) = w := by
  apply BitVec.eq_of_getLsbD_eq
  intro k hk
  interval_cases k <;>
    simp only [getLsbD_nnn, iField, nnnField, BitVec.getLsbD_extractLsb'] <;> simp

theorem iField_append_xField_append_kkField (w : Word) :
    (iField w ++ xField w ++ kkField w : Word) = w := by
  apply BitVec.eq_of_getLsbD_eq
  intro k hk
  interval_cases k <;>
    simp only [getLsbD_kk, getLsbD_nibbles, iField, xField, kkField, BitVec.getLsbD_extractLsb'] <;> simp

theorem append_four_fields (w : Word) :
    (iField w ++ xField w ++ yField w ++ nField w : Word) = w := by
  apply BitVec.eq_of_getLsbD_eq
  intro k hk
  interval_cases k <;>
    simp only [getLsbD_n, getLsbD_threeNibbles, getLsbD_nibbles, iField, xField, yField, nField,
      BitVec.getLsbD_extractLsb'] <;> simp

/-- A nibble is one of sixteen. -/
theorem nibble_cases (c : Nibble) :
    c = 0x0#4 ∨ c = 0x1#4 ∨ c = 0x2#4 ∨ c = 0x3#4 ∨ c = 0x4#4 ∨ c = 0x5#4 ∨ c = 0x6#4 ∨ c = 0x7#4 ∨
    c = 0x8#4 ∨ c = 0x9#4 ∨ c = 0xA#4 ∨ c = 0xB#4 ∨ c = 0xC#4 ∨ c = 0xD#4 ∨ c = 0xE#4 ∨ c = 0xF#4 := by
  revert c
  decide

end Sys2Proof
end

