-- ==== Sys2Proof/Laws/Memory.lean ====
section
/-! SUPPORT. The laws of memory: read after write, the canonical form kept by every operation, and equal reads
from canonical memories mean equal memories. -/

namespace Sys2Proof.Machine

variable {init : Nat → Byte}

@[simp] theorem Memory.read_nil (a : Nat) : Memory.read init [] a = init a := rfl

/-- What the canonical form says of a listed cell and the cells after it. -/
theorem Memory.wfFrom_cons {lo k : Nat} {b : Byte} {m : Memory} :
    Memory.wfFrom init lo ((k, b) :: m) = true ↔
      lo ≤ k ∧ k < 4096 ∧ b ≠ init k ∧ Memory.wfFrom init (k + 1) m = true := by
  simp [Memory.wfFrom, and_assoc]

/-- A canonical form from a later address is one from an earlier address. -/
theorem Memory.wfFrom_mono {m : Memory} {lo lo' : Nat} (h : Memory.wfFrom init lo m = true)
    (hle : lo' ≤ lo) : Memory.wfFrom init lo' m = true := by
  cases m with
  | nil => rfl
  | cons c m =>
    obtain ⟨k, b⟩ := c
    rw [Memory.wfFrom_cons] at h ⊢
    exact ⟨by omega, h.2⟩

/-- Below the first address of a canonical form every byte has its construction value. -/
theorem Memory.read_below {m : Memory} {lo a : Nat} (h : Memory.wfFrom init lo m = true)
    (ha : a < lo) : Memory.read init m a = init a := by
  induction m generalizing lo with
  | nil => rfl
  | cons c m ih =>
    obtain ⟨k, b⟩ := c
    obtain ⟨h1, _, _, h4⟩ := Memory.wfFrom_cons.1 h
    simp only [Memory.read, if_neg (show k ≠ a by omega)]
    exact ih h4 (by omega)

/-- A write keeps the canonical form. -/
theorem Memory.wfFrom_write {m : Memory} {lo a : Nat} (b : Byte)
    (h : Memory.wfFrom init lo m = true) (hlo : lo ≤ a) (ha : a < 4096) :
    Memory.wfFrom init lo (Memory.write init m a b) = true := by
  induction m generalizing lo with
  | nil =>
    unfold Memory.write
    split
    · rfl
    · exact Memory.wfFrom_cons.2 ⟨hlo, ha, ‹_›, rfl⟩
  | cons c m ih =>
    obtain ⟨k, c⟩ := c
    obtain ⟨h1, h2, h3, h4⟩ := Memory.wfFrom_cons.1 h
    unfold Memory.write
    split
    · split
      · exact h
      · exact Memory.wfFrom_cons.2 ⟨hlo, ha, ‹_›, Memory.wfFrom_cons.2 ⟨by omega, h2, h3, h4⟩⟩
    · split
      · split
        · exact Memory.wfFrom_mono h4 (by omega)
        · subst a
          exact Memory.wfFrom_cons.2 ⟨hlo, ha, ‹_›, h4⟩
      · exact Memory.wfFrom_cons.2 ⟨h1, h2, h3, ih h4 (by omega)⟩

/-- A read after a write: the byte written at its address, every other byte as before. -/
theorem Memory.read_write {m : Memory} {lo : Nat} (a : Nat) (b : Byte) (c : Nat)
    (h : Memory.wfFrom init lo m = true) :
    Memory.read init (Memory.write init m a b) c = if c = a then b else Memory.read init m c := by
  induction m generalizing lo with
  | nil =>
    unfold Memory.write
    split
    · by_cases hc : c = a <;> simp_all
    · by_cases hc : c = a
      · simp [Memory.read, hc]
      · simp [Memory.read, hc, Ne.symm hc]
  | cons d m ih =>
    obtain ⟨k, d⟩ := d
    obtain ⟨h1, h2, h3, h4⟩ := Memory.wfFrom_cons.1 h
    unfold Memory.write
    split
    · next hak =>
      have hka : Memory.read init ((k, d) :: m) a = init a :=
        Memory.read_below (Memory.wfFrom_cons.2 ⟨Nat.le_refl k, h2, h3, h4⟩) hak
      split
      · split <;> simp_all
      · by_cases hc : c = a
        · simp [Memory.read, hc]
        · simp [Memory.read, hc, Ne.symm hc]
    · split
      · next hak =>
        subst hak
        have hka : Memory.read init m a = init a := Memory.read_below h4 (by omega)
        split
        · by_cases hc : c = a
          · simp_all
          · simp [Memory.read, hc, Ne.symm hc]
        · by_cases hc : c = a
          · simp [Memory.read, hc]
          · simp [Memory.read, hc, Ne.symm hc]
      · next _ hak =>
        simp only [Memory.read, ih h4]
        by_cases hk : k = c
        · simp [hk, show c ≠ a from fun e => hak (by omega)]
        · simp [hk]

/-- Equal bytes everywhere and canonical form on both sides: equal memories. -/
theorem Memory.ext_of_wfFrom {m m' : Memory} {lo : Nat} (h : Memory.wfFrom init lo m = true)
    (h' : Memory.wfFrom init lo m' = true)
    (heq : ∀ a, Memory.read init m a = Memory.read init m' a) : m = m' := by
  induction m generalizing lo m' with
  | nil =>
    cases m' with
    | nil => rfl
    | cons c m' =>
      obtain ⟨k, b⟩ := c
      have := heq k
      simp [Memory.read] at this
      exact absurd this.symm (Memory.wfFrom_cons.1 h').2.2.1
  | cons c m ih =>
    obtain ⟨k, b⟩ := c
    obtain ⟨h1, h2, h3, h4⟩ := Memory.wfFrom_cons.1 h
    cases m' with
    | nil =>
      have := heq k
      simp [Memory.read] at this
      exact absurd this h3
    | cons c' m' =>
      obtain ⟨k', b'⟩ := c'
      obtain ⟨g1, g2, g3, g4⟩ := Memory.wfFrom_cons.1 h'
      have hk : k = k' := by
        rcases Nat.lt_trichotomy k k' with hlt | he | hgt
        · have := heq k
          rw [Memory.read_below (m := (k', b') :: m')
            (Memory.wfFrom_cons.2 ⟨Nat.le_refl k', g2, g3, g4⟩) hlt] at this
          simp [Memory.read] at this
          exact absurd this h3
        · exact he
        · have := heq k'
          rw [Memory.read_below (m := (k, b) :: m)
            (Memory.wfFrom_cons.2 ⟨Nat.le_refl k, h2, h3, h4⟩) hgt] at this
          simp [Memory.read] at this
          exact absurd this.symm g3
      subst hk
      have hb : b = b' := by simpa [Memory.read] using heq k
      subst hb
      have : m = m' := by
        refine ih h4 g4 fun a => ?_
        by_cases ha : k = a
        · subst ha
          rw [Memory.read_below h4 (by omega), Memory.read_below g4 (by omega)]
        · simpa [Memory.read, ha] using heq a
      rw [this]

/-- The cells of a ROM image are in canonical form. -/
theorem wfFrom_romCells (base : Nat) (rom : List Byte) (h : base + rom.length ≤ 4096) :
    Memory.wfFrom init base (romCells init base rom) = true := by
  induction rom generalizing base with
  | nil => rfl
  | cons b bs ih =>
    have ih := ih (base + 1) (by simp at h; omega)
    unfold romCells
    split
    · exact Memory.wfFrom_mono ih (by omega)
    · exact Memory.wfFrom_cons.2 ⟨Nat.le_refl _, by simp at h; omega, ‹_›, ih⟩

/-- Reading the cells of a ROM image: its bytes from `base`, construction values elsewhere (R341). -/
theorem read_romCells (base : Nat) (rom : List Byte) (h : base + rom.length ≤ 4096) (a : Nat) :
    Memory.read init (romCells init base rom) a =
      if h : base ≤ a ∧ a - base < rom.length then rom[a - base]'h.2 else init a := by
  induction rom generalizing base with
  | nil => simp [romCells]
  | cons b bs ih =>
    have hlen : base + 1 + bs.length ≤ 4096 := by simp at h; omega
    have below : Memory.read init (romCells init (base + 1) bs) base = init base :=
      Memory.read_below (wfFrom_romCells (base + 1) bs hlen) (by omega)
    by_cases hba : a = base
    · subst hba
      unfold romCells
      split <;> simp_all [Memory.read]
    · have hrest : Memory.read init (romCells init base (b :: bs)) a =
          Memory.read init (romCells init (base + 1) bs) a := by
        rw [romCells]
        split
        · rfl
        · simp [Memory.read, Ne.symm hba]
      rw [hrest, ih (base + 1) hlen]
      by_cases hle : base + 1 ≤ a
      · have hidx : a - base = (a - (base + 1)) + 1 := by omega
        by_cases hin : a - (base + 1) < bs.length
        · rw [dif_pos ⟨hle, hin⟩, dif_pos ⟨by omega, by simp; omega⟩]
          simp [hidx]
        · rw [dif_neg (fun g => hin g.2), dif_neg (fun g => hin (by have := g.2; simp at this; omega))]
      · rw [dif_neg (fun g => hle g.1), dif_neg (fun g => hle (by omega))]

end Sys2Proof.Machine
end

