-- ==== Sys2Proof/Laws/State.lean ====
section
/-! SUPPORT. What each update of the state leaves in each field: one lemma per field per update, true by
unfolding once, so that no later proof unfolds a record update. -/

namespace Sys2Proof.Machine

variable (s : State)

/-! ### `setV` -/

@[simp] theorem State.setV_mem (r : Nibble) (b : Byte) : (s.setV r b).mem = s.mem := rfl
@[simp] theorem State.setV_v (r : Nibble) (b : Byte) : (s.setV r b).v = s.v.set r.toNat b r.isLt := rfl
@[simp] theorem State.setV_i (r : Nibble) (b : Byte) : (s.setV r b).i = s.i := rfl
@[simp] theorem State.setV_pc (r : Nibble) (b : Byte) : (s.setV r b).pc = s.pc := rfl
@[simp] theorem State.setV_sp (r : Nibble) (b : Byte) : (s.setV r b).sp = s.sp := rfl
@[simp] theorem State.setV_stack (r : Nibble) (b : Byte) : (s.setV r b).stack = s.stack := rfl
@[simp] theorem State.setV_dt (r : Nibble) (b : Byte) : (s.setV r b).dt = s.dt := rfl
@[simp] theorem State.setV_st (r : Nibble) (b : Byte) : (s.setV r b).st = s.st := rfl
@[simp] theorem State.setV_paused (r : Nibble) (b : Byte) : (s.setV r b).paused = s.paused := rfl
@[simp] theorem State.setV_pending (r : Nibble) (b : Byte) : (s.setV r b).pending = s.pending := rfl
@[simp] theorem State.setV_fault (r : Nibble) (b : Byte) : (s.setV r b).fault = s.fault := rfl
@[simp] theorem State.setV_fb (r : Nibble) (b : Byte) : (s.setV r b).fb = s.fb := rfl
@[simp] theorem State.setV_trace (r : Nibble) (b : Byte) : (s.setV r b).trace = s.trace := rfl
@[simp] theorem State.setV_cfg (r : Nibble) (b : Byte) : (s.setV r b).cfg = s.cfg := rfl
@[simp] theorem State.setV_draws (r : Nibble) (b : Byte) : (s.setV r b).draws = s.draws := rfl
@[simp] theorem State.setV_drawCount (r : Nibble) (b : Byte) : (s.setV r b).drawCount = s.drawCount := rfl
@[simp] theorem State.setV_answers (r : Nibble) (b : Byte) : (s.setV r b).answers = s.answers := rfl
@[simp] theorem State.setV_askCount (r : Nibble) (b : Byte) : (s.setV r b).askCount = s.askCount := rfl
@[simp] theorem State.setV_host (r : Nibble) (b : Byte) : (s.setV r b).host = s.host := rfl
@[simp] theorem State.setV_hostCount (r : Nibble) (b : Byte) : (s.setV r b).hostCount = s.hostCount := rfl
@[simp] theorem State.setV_loadRefused (r : Nibble) (b : Byte) : (s.setV r b).loadRefused = s.loadRefused := rfl
@[simp] theorem State.setV_phase (r : Nibble) (b : Byte) : (s.setV r b).phase = s.phase := rfl

/-! ### `setI` -/

@[simp] theorem State.setI_mem (w : Word) : (s.setI w).mem = s.mem := rfl
@[simp] theorem State.setI_v (w : Word) : (s.setI w).v = s.v := rfl
@[simp] theorem State.setI_i (w : Word) : (s.setI w).i = w := rfl
@[simp] theorem State.setI_pc (w : Word) : (s.setI w).pc = s.pc := rfl
@[simp] theorem State.setI_sp (w : Word) : (s.setI w).sp = s.sp := rfl
@[simp] theorem State.setI_stack (w : Word) : (s.setI w).stack = s.stack := rfl
@[simp] theorem State.setI_dt (w : Word) : (s.setI w).dt = s.dt := rfl
@[simp] theorem State.setI_st (w : Word) : (s.setI w).st = s.st := rfl
@[simp] theorem State.setI_paused (w : Word) : (s.setI w).paused = s.paused := rfl
@[simp] theorem State.setI_pending (w : Word) : (s.setI w).pending = s.pending := rfl
@[simp] theorem State.setI_fault (w : Word) : (s.setI w).fault = s.fault := rfl
@[simp] theorem State.setI_fb (w : Word) : (s.setI w).fb = s.fb := rfl
@[simp] theorem State.setI_trace (w : Word) : (s.setI w).trace = s.trace := rfl
@[simp] theorem State.setI_cfg (w : Word) : (s.setI w).cfg = s.cfg := rfl
@[simp] theorem State.setI_draws (w : Word) : (s.setI w).draws = s.draws := rfl
@[simp] theorem State.setI_drawCount (w : Word) : (s.setI w).drawCount = s.drawCount := rfl
@[simp] theorem State.setI_answers (w : Word) : (s.setI w).answers = s.answers := rfl
@[simp] theorem State.setI_askCount (w : Word) : (s.setI w).askCount = s.askCount := rfl
@[simp] theorem State.setI_host (w : Word) : (s.setI w).host = s.host := rfl
@[simp] theorem State.setI_hostCount (w : Word) : (s.setI w).hostCount = s.hostCount := rfl
@[simp] theorem State.setI_loadRefused (w : Word) : (s.setI w).loadRefused = s.loadRefused := rfl
@[simp] theorem State.setI_phase (w : Word) : (s.setI w).phase = s.phase := rfl

/-! ### `setPc` -/

@[simp] theorem State.setPc_mem (w : Word) : (s.setPc w).mem = s.mem := rfl
@[simp] theorem State.setPc_v (w : Word) : (s.setPc w).v = s.v := rfl
@[simp] theorem State.setPc_i (w : Word) : (s.setPc w).i = s.i := rfl
@[simp] theorem State.setPc_pc (w : Word) : (s.setPc w).pc = w := rfl
@[simp] theorem State.setPc_sp (w : Word) : (s.setPc w).sp = s.sp := rfl
@[simp] theorem State.setPc_stack (w : Word) : (s.setPc w).stack = s.stack := rfl
@[simp] theorem State.setPc_dt (w : Word) : (s.setPc w).dt = s.dt := rfl
@[simp] theorem State.setPc_st (w : Word) : (s.setPc w).st = s.st := rfl
@[simp] theorem State.setPc_paused (w : Word) : (s.setPc w).paused = s.paused := rfl
@[simp] theorem State.setPc_pending (w : Word) : (s.setPc w).pending = s.pending := rfl
@[simp] theorem State.setPc_fault (w : Word) : (s.setPc w).fault = s.fault := rfl
@[simp] theorem State.setPc_fb (w : Word) : (s.setPc w).fb = s.fb := rfl
@[simp] theorem State.setPc_trace (w : Word) : (s.setPc w).trace = s.trace := rfl
@[simp] theorem State.setPc_cfg (w : Word) : (s.setPc w).cfg = s.cfg := rfl
@[simp] theorem State.setPc_draws (w : Word) : (s.setPc w).draws = s.draws := rfl
@[simp] theorem State.setPc_drawCount (w : Word) : (s.setPc w).drawCount = s.drawCount := rfl
@[simp] theorem State.setPc_answers (w : Word) : (s.setPc w).answers = s.answers := rfl
@[simp] theorem State.setPc_askCount (w : Word) : (s.setPc w).askCount = s.askCount := rfl
@[simp] theorem State.setPc_host (w : Word) : (s.setPc w).host = s.host := rfl
@[simp] theorem State.setPc_hostCount (w : Word) : (s.setPc w).hostCount = s.hostCount := rfl
@[simp] theorem State.setPc_loadRefused (w : Word) : (s.setPc w).loadRefused = s.loadRefused := rfl
@[simp] theorem State.setPc_phase (w : Word) : (s.setPc w).phase = s.phase := rfl

/-! ### `setDt` -/

@[simp] theorem State.setDt_mem (b : Byte) : (s.setDt b).mem = s.mem := rfl
@[simp] theorem State.setDt_v (b : Byte) : (s.setDt b).v = s.v := rfl
@[simp] theorem State.setDt_i (b : Byte) : (s.setDt b).i = s.i := rfl
@[simp] theorem State.setDt_pc (b : Byte) : (s.setDt b).pc = s.pc := rfl
@[simp] theorem State.setDt_sp (b : Byte) : (s.setDt b).sp = s.sp := rfl
@[simp] theorem State.setDt_stack (b : Byte) : (s.setDt b).stack = s.stack := rfl
@[simp] theorem State.setDt_dt (b : Byte) : (s.setDt b).dt = b := rfl
@[simp] theorem State.setDt_st (b : Byte) : (s.setDt b).st = s.st := rfl
@[simp] theorem State.setDt_paused (b : Byte) : (s.setDt b).paused = s.paused := rfl
@[simp] theorem State.setDt_pending (b : Byte) : (s.setDt b).pending = s.pending := rfl
@[simp] theorem State.setDt_fault (b : Byte) : (s.setDt b).fault = s.fault := rfl
@[simp] theorem State.setDt_fb (b : Byte) : (s.setDt b).fb = s.fb := rfl
@[simp] theorem State.setDt_trace (b : Byte) : (s.setDt b).trace = s.trace := rfl
@[simp] theorem State.setDt_cfg (b : Byte) : (s.setDt b).cfg = s.cfg := rfl
@[simp] theorem State.setDt_draws (b : Byte) : (s.setDt b).draws = s.draws := rfl
@[simp] theorem State.setDt_drawCount (b : Byte) : (s.setDt b).drawCount = s.drawCount := rfl
@[simp] theorem State.setDt_answers (b : Byte) : (s.setDt b).answers = s.answers := rfl
@[simp] theorem State.setDt_askCount (b : Byte) : (s.setDt b).askCount = s.askCount := rfl
@[simp] theorem State.setDt_host (b : Byte) : (s.setDt b).host = s.host := rfl
@[simp] theorem State.setDt_hostCount (b : Byte) : (s.setDt b).hostCount = s.hostCount := rfl
@[simp] theorem State.setDt_loadRefused (b : Byte) : (s.setDt b).loadRefused = s.loadRefused := rfl
@[simp] theorem State.setDt_phase (b : Byte) : (s.setDt b).phase = s.phase := rfl

/-! ### `setSt` -/

@[simp] theorem State.setSt_mem (b : Byte) : (s.setSt b).mem = s.mem := rfl
@[simp] theorem State.setSt_v (b : Byte) : (s.setSt b).v = s.v := rfl
@[simp] theorem State.setSt_i (b : Byte) : (s.setSt b).i = s.i := rfl
@[simp] theorem State.setSt_pc (b : Byte) : (s.setSt b).pc = s.pc := rfl
@[simp] theorem State.setSt_sp (b : Byte) : (s.setSt b).sp = s.sp := rfl
@[simp] theorem State.setSt_stack (b : Byte) : (s.setSt b).stack = s.stack := rfl
@[simp] theorem State.setSt_dt (b : Byte) : (s.setSt b).dt = s.dt := rfl
@[simp] theorem State.setSt_st (b : Byte) : (s.setSt b).st = b := rfl
@[simp] theorem State.setSt_paused (b : Byte) : (s.setSt b).paused = s.paused := rfl
@[simp] theorem State.setSt_pending (b : Byte) : (s.setSt b).pending = s.pending := rfl
@[simp] theorem State.setSt_fault (b : Byte) : (s.setSt b).fault = s.fault := rfl
@[simp] theorem State.setSt_fb (b : Byte) : (s.setSt b).fb = s.fb := rfl
@[simp] theorem State.setSt_trace (b : Byte) : (s.setSt b).trace = s.trace := rfl
@[simp] theorem State.setSt_cfg (b : Byte) : (s.setSt b).cfg = s.cfg := rfl
@[simp] theorem State.setSt_draws (b : Byte) : (s.setSt b).draws = s.draws := rfl
@[simp] theorem State.setSt_drawCount (b : Byte) : (s.setSt b).drawCount = s.drawCount := rfl
@[simp] theorem State.setSt_answers (b : Byte) : (s.setSt b).answers = s.answers := rfl
@[simp] theorem State.setSt_askCount (b : Byte) : (s.setSt b).askCount = s.askCount := rfl
@[simp] theorem State.setSt_host (b : Byte) : (s.setSt b).host = s.host := rfl
@[simp] theorem State.setSt_hostCount (b : Byte) : (s.setSt b).hostCount = s.hostCount := rfl
@[simp] theorem State.setSt_loadRefused (b : Byte) : (s.setSt b).loadRefused = s.loadRefused := rfl
@[simp] theorem State.setSt_phase (b : Byte) : (s.setSt b).phase = s.phase := rfl

/-! ### `poke` -/

@[simp] theorem State.poke_mem (a : Nat) (b : Byte) : (s.poke a b).mem = Memory.write s.initAt s.mem a b := rfl
@[simp] theorem State.poke_v (a : Nat) (b : Byte) : (s.poke a b).v = s.v := rfl
@[simp] theorem State.poke_i (a : Nat) (b : Byte) : (s.poke a b).i = s.i := rfl
@[simp] theorem State.poke_pc (a : Nat) (b : Byte) : (s.poke a b).pc = s.pc := rfl
@[simp] theorem State.poke_sp (a : Nat) (b : Byte) : (s.poke a b).sp = s.sp := rfl
@[simp] theorem State.poke_stack (a : Nat) (b : Byte) : (s.poke a b).stack = s.stack := rfl
@[simp] theorem State.poke_dt (a : Nat) (b : Byte) : (s.poke a b).dt = s.dt := rfl
@[simp] theorem State.poke_st (a : Nat) (b : Byte) : (s.poke a b).st = s.st := rfl
@[simp] theorem State.poke_paused (a : Nat) (b : Byte) : (s.poke a b).paused = s.paused := rfl
@[simp] theorem State.poke_pending (a : Nat) (b : Byte) : (s.poke a b).pending = s.pending := rfl
@[simp] theorem State.poke_fault (a : Nat) (b : Byte) : (s.poke a b).fault = s.fault := rfl
@[simp] theorem State.poke_fb (a : Nat) (b : Byte) : (s.poke a b).fb = s.fb := rfl
@[simp] theorem State.poke_trace (a : Nat) (b : Byte) : (s.poke a b).trace = s.trace := rfl
@[simp] theorem State.poke_cfg (a : Nat) (b : Byte) : (s.poke a b).cfg = s.cfg := rfl
@[simp] theorem State.poke_draws (a : Nat) (b : Byte) : (s.poke a b).draws = s.draws := rfl
@[simp] theorem State.poke_drawCount (a : Nat) (b : Byte) : (s.poke a b).drawCount = s.drawCount := rfl
@[simp] theorem State.poke_answers (a : Nat) (b : Byte) : (s.poke a b).answers = s.answers := rfl
@[simp] theorem State.poke_askCount (a : Nat) (b : Byte) : (s.poke a b).askCount = s.askCount := rfl
@[simp] theorem State.poke_host (a : Nat) (b : Byte) : (s.poke a b).host = s.host := rfl
@[simp] theorem State.poke_hostCount (a : Nat) (b : Byte) : (s.poke a b).hostCount = s.hostCount := rfl
@[simp] theorem State.poke_loadRefused (a : Nat) (b : Byte) : (s.poke a b).loadRefused = s.loadRefused := rfl
@[simp] theorem State.poke_phase (a : Nat) (b : Byte) : (s.poke a b).phase = s.phase := rfl

/-! ### `emit` -/

@[simp] theorem State.emit_mem (e : Event) : (s.emit e).mem = s.mem := rfl
@[simp] theorem State.emit_v (e : Event) : (s.emit e).v = s.v := rfl
@[simp] theorem State.emit_i (e : Event) : (s.emit e).i = s.i := rfl
@[simp] theorem State.emit_pc (e : Event) : (s.emit e).pc = s.pc := rfl
@[simp] theorem State.emit_sp (e : Event) : (s.emit e).sp = s.sp := rfl
@[simp] theorem State.emit_stack (e : Event) : (s.emit e).stack = s.stack := rfl
@[simp] theorem State.emit_dt (e : Event) : (s.emit e).dt = s.dt := rfl
@[simp] theorem State.emit_st (e : Event) : (s.emit e).st = s.st := rfl
@[simp] theorem State.emit_paused (e : Event) : (s.emit e).paused = s.paused := rfl
@[simp] theorem State.emit_pending (e : Event) : (s.emit e).pending = s.pending := rfl
@[simp] theorem State.emit_fault (e : Event) : (s.emit e).fault = s.fault := rfl
@[simp] theorem State.emit_fb (e : Event) : (s.emit e).fb = s.fb := rfl
@[simp] theorem State.emit_trace (e : Event) : (s.emit e).trace = s.trace ++ [e] := rfl
@[simp] theorem State.emit_cfg (e : Event) : (s.emit e).cfg = s.cfg := rfl
@[simp] theorem State.emit_draws (e : Event) : (s.emit e).draws = s.draws := rfl
@[simp] theorem State.emit_drawCount (e : Event) : (s.emit e).drawCount = s.drawCount := rfl
@[simp] theorem State.emit_answers (e : Event) : (s.emit e).answers = s.answers := rfl
@[simp] theorem State.emit_askCount (e : Event) : (s.emit e).askCount = s.askCount := rfl
@[simp] theorem State.emit_host (e : Event) : (s.emit e).host = s.host := rfl
@[simp] theorem State.emit_hostCount (e : Event) : (s.emit e).hostCount = s.hostCount := rfl
@[simp] theorem State.emit_loadRefused (e : Event) : (s.emit e).loadRefused = s.loadRefused := rfl
@[simp] theorem State.emit_phase (e : Event) : (s.emit e).phase = s.phase := rfl

/-! ### `advance` -/

@[simp] theorem State.advance_mem : (s.advance).mem = s.mem := rfl
@[simp] theorem State.advance_v : (s.advance).v = s.v := rfl
@[simp] theorem State.advance_i : (s.advance).i = s.i := rfl
@[simp] theorem State.advance_pc : (s.advance).pc = s.pc + 2#16 := rfl
@[simp] theorem State.advance_sp : (s.advance).sp = s.sp := rfl
@[simp] theorem State.advance_stack : (s.advance).stack = s.stack := rfl
@[simp] theorem State.advance_dt : (s.advance).dt = s.dt := rfl
@[simp] theorem State.advance_st : (s.advance).st = s.st := rfl
@[simp] theorem State.advance_paused : (s.advance).paused = s.paused := rfl
@[simp] theorem State.advance_pending : (s.advance).pending = s.pending := rfl
@[simp] theorem State.advance_fault : (s.advance).fault = s.fault := rfl
@[simp] theorem State.advance_fb : (s.advance).fb = s.fb := rfl
@[simp] theorem State.advance_trace : (s.advance).trace = s.trace := rfl
@[simp] theorem State.advance_cfg : (s.advance).cfg = s.cfg := rfl
@[simp] theorem State.advance_draws : (s.advance).draws = s.draws := rfl
@[simp] theorem State.advance_drawCount : (s.advance).drawCount = s.drawCount := rfl
@[simp] theorem State.advance_answers : (s.advance).answers = s.answers := rfl
@[simp] theorem State.advance_askCount : (s.advance).askCount = s.askCount := rfl
@[simp] theorem State.advance_host : (s.advance).host = s.host := rfl
@[simp] theorem State.advance_hostCount : (s.advance).hostCount = s.hostCount := rfl
@[simp] theorem State.advance_loadRefused : (s.advance).loadRefused = s.loadRefused := rfl
@[simp] theorem State.advance_phase : (s.advance).phase = s.phase := rfl

/-! ### `raiseAt` -/

@[simp] theorem State.raiseAt_mem (p : Word) (c : FaultCause) : (s.raiseAt p c).mem = s.mem := rfl
@[simp] theorem State.raiseAt_v (p : Word) (c : FaultCause) : (s.raiseAt p c).v = s.v := rfl
@[simp] theorem State.raiseAt_i (p : Word) (c : FaultCause) : (s.raiseAt p c).i = s.i := rfl
@[simp] theorem State.raiseAt_pc (p : Word) (c : FaultCause) : (s.raiseAt p c).pc = p := rfl
@[simp] theorem State.raiseAt_sp (p : Word) (c : FaultCause) : (s.raiseAt p c).sp = s.sp := rfl
@[simp] theorem State.raiseAt_stack (p : Word) (c : FaultCause) : (s.raiseAt p c).stack = s.stack := rfl
@[simp] theorem State.raiseAt_dt (p : Word) (c : FaultCause) : (s.raiseAt p c).dt = s.dt := rfl
@[simp] theorem State.raiseAt_st (p : Word) (c : FaultCause) : (s.raiseAt p c).st = s.st := rfl
@[simp] theorem State.raiseAt_paused (p : Word) (c : FaultCause) : (s.raiseAt p c).paused = s.paused := rfl
@[simp] theorem State.raiseAt_pending (p : Word) (c : FaultCause) : (s.raiseAt p c).pending = s.pending := rfl
@[simp] theorem State.raiseAt_fault (p : Word) (c : FaultCause) : (s.raiseAt p c).fault = some ⟨c, p⟩ := rfl
@[simp] theorem State.raiseAt_fb (p : Word) (c : FaultCause) : (s.raiseAt p c).fb = s.fb := rfl
@[simp] theorem State.raiseAt_trace (p : Word) (c : FaultCause) : (s.raiseAt p c).trace = s.trace ++ [.halt ⟨c, p⟩] := rfl
@[simp] theorem State.raiseAt_cfg (p : Word) (c : FaultCause) : (s.raiseAt p c).cfg = s.cfg := rfl
@[simp] theorem State.raiseAt_draws (p : Word) (c : FaultCause) : (s.raiseAt p c).draws = s.draws := rfl
@[simp] theorem State.raiseAt_drawCount (p : Word) (c : FaultCause) : (s.raiseAt p c).drawCount = s.drawCount := rfl
@[simp] theorem State.raiseAt_answers (p : Word) (c : FaultCause) : (s.raiseAt p c).answers = s.answers := rfl
@[simp] theorem State.raiseAt_askCount (p : Word) (c : FaultCause) : (s.raiseAt p c).askCount = s.askCount := rfl
@[simp] theorem State.raiseAt_host (p : Word) (c : FaultCause) : (s.raiseAt p c).host = s.host := rfl
@[simp] theorem State.raiseAt_hostCount (p : Word) (c : FaultCause) : (s.raiseAt p c).hostCount = s.hostCount := rfl
@[simp] theorem State.raiseAt_loadRefused (p : Word) (c : FaultCause) : (s.raiseAt p c).loadRefused = s.loadRefused := rfl
@[simp] theorem State.raiseAt_phase (p : Word) (c : FaultCause) : (s.raiseAt p c).phase = s.phase := rfl

/-! ### `raise` -/

@[simp] theorem State.raise_mem (c : FaultCause) : (s.raise c).mem = s.mem := rfl
@[simp] theorem State.raise_v (c : FaultCause) : (s.raise c).v = s.v := rfl
@[simp] theorem State.raise_i (c : FaultCause) : (s.raise c).i = s.i := rfl
@[simp] theorem State.raise_pc (c : FaultCause) : (s.raise c).pc = s.pc - 2#16 := rfl
@[simp] theorem State.raise_sp (c : FaultCause) : (s.raise c).sp = s.sp := rfl
@[simp] theorem State.raise_stack (c : FaultCause) : (s.raise c).stack = s.stack := rfl
@[simp] theorem State.raise_dt (c : FaultCause) : (s.raise c).dt = s.dt := rfl
@[simp] theorem State.raise_st (c : FaultCause) : (s.raise c).st = s.st := rfl
@[simp] theorem State.raise_paused (c : FaultCause) : (s.raise c).paused = s.paused := rfl
@[simp] theorem State.raise_pending (c : FaultCause) : (s.raise c).pending = s.pending := rfl
@[simp] theorem State.raise_fault (c : FaultCause) : (s.raise c).fault = some ⟨c, s.pc - 2#16⟩ := rfl
@[simp] theorem State.raise_fb (c : FaultCause) : (s.raise c).fb = s.fb := rfl
@[simp] theorem State.raise_trace (c : FaultCause) : (s.raise c).trace = s.trace ++ [.halt ⟨c, s.pc - 2#16⟩] := rfl
@[simp] theorem State.raise_cfg (c : FaultCause) : (s.raise c).cfg = s.cfg := rfl
@[simp] theorem State.raise_draws (c : FaultCause) : (s.raise c).draws = s.draws := rfl
@[simp] theorem State.raise_drawCount (c : FaultCause) : (s.raise c).drawCount = s.drawCount := rfl
@[simp] theorem State.raise_answers (c : FaultCause) : (s.raise c).answers = s.answers := rfl
@[simp] theorem State.raise_askCount (c : FaultCause) : (s.raise c).askCount = s.askCount := rfl
@[simp] theorem State.raise_host (c : FaultCause) : (s.raise c).host = s.host := rfl
@[simp] theorem State.raise_hostCount (c : FaultCause) : (s.raise c).hostCount = s.hostCount := rfl
@[simp] theorem State.raise_loadRefused (c : FaultCause) : (s.raise c).loadRefused = s.loadRefused := rfl
@[simp] theorem State.raise_phase (c : FaultCause) : (s.raise c).phase = s.phase := rfl

/-! ### `drawn` -/

@[simp] theorem State.drawn_mem : (s.drawn).mem = s.mem := rfl
@[simp] theorem State.drawn_v : (s.drawn).v = s.v := rfl
@[simp] theorem State.drawn_i : (s.drawn).i = s.i := rfl
@[simp] theorem State.drawn_pc : (s.drawn).pc = s.pc := rfl
@[simp] theorem State.drawn_sp : (s.drawn).sp = s.sp := rfl
@[simp] theorem State.drawn_stack : (s.drawn).stack = s.stack := rfl
@[simp] theorem State.drawn_dt : (s.drawn).dt = s.dt := rfl
@[simp] theorem State.drawn_st : (s.drawn).st = s.st := rfl
@[simp] theorem State.drawn_paused : (s.drawn).paused = s.paused := rfl
@[simp] theorem State.drawn_pending : (s.drawn).pending = s.pending := rfl
@[simp] theorem State.drawn_fault : (s.drawn).fault = s.fault := rfl
@[simp] theorem State.drawn_fb : (s.drawn).fb = s.fb := rfl
@[simp] theorem State.drawn_trace : (s.drawn).trace = s.trace := rfl
@[simp] theorem State.drawn_cfg : (s.drawn).cfg = s.cfg := rfl
@[simp] theorem State.drawn_draws : (s.drawn).draws = s.draws.tail := rfl
@[simp] theorem State.drawn_drawCount : (s.drawn).drawCount = s.drawCount + 1 := rfl
@[simp] theorem State.drawn_answers : (s.drawn).answers = s.answers := rfl
@[simp] theorem State.drawn_askCount : (s.drawn).askCount = s.askCount := rfl
@[simp] theorem State.drawn_host : (s.drawn).host = s.host := rfl
@[simp] theorem State.drawn_hostCount : (s.drawn).hostCount = s.hostCount := rfl
@[simp] theorem State.drawn_loadRefused : (s.drawn).loadRefused = s.loadRefused := rfl
@[simp] theorem State.drawn_phase : (s.drawn).phase = s.phase := rfl

/-! ### `asked` -/

@[simp] theorem State.asked_mem : (s.asked).mem = s.mem := rfl
@[simp] theorem State.asked_v : (s.asked).v = s.v := rfl
@[simp] theorem State.asked_i : (s.asked).i = s.i := rfl
@[simp] theorem State.asked_pc : (s.asked).pc = s.pc := rfl
@[simp] theorem State.asked_sp : (s.asked).sp = s.sp := rfl
@[simp] theorem State.asked_stack : (s.asked).stack = s.stack := rfl
@[simp] theorem State.asked_dt : (s.asked).dt = s.dt := rfl
@[simp] theorem State.asked_st : (s.asked).st = s.st := rfl
@[simp] theorem State.asked_paused : (s.asked).paused = s.paused := rfl
@[simp] theorem State.asked_pending : (s.asked).pending = s.pending := rfl
@[simp] theorem State.asked_fault : (s.asked).fault = s.fault := rfl
@[simp] theorem State.asked_fb : (s.asked).fb = s.fb := rfl
@[simp] theorem State.asked_trace : (s.asked).trace = s.trace := rfl
@[simp] theorem State.asked_cfg : (s.asked).cfg = s.cfg := rfl
@[simp] theorem State.asked_draws : (s.asked).draws = s.draws := rfl
@[simp] theorem State.asked_drawCount : (s.asked).drawCount = s.drawCount := rfl
@[simp] theorem State.asked_answers : (s.asked).answers = s.answers.tail := rfl
@[simp] theorem State.asked_askCount : (s.asked).askCount = s.askCount + 1 := rfl
@[simp] theorem State.asked_host : (s.asked).host = s.host := rfl
@[simp] theorem State.asked_hostCount : (s.asked).hostCount = s.hostCount := rfl
@[simp] theorem State.asked_loadRefused : (s.asked).loadRefused = s.loadRefused := rfl
@[simp] theorem State.asked_phase : (s.asked).phase = s.phase := rfl

/-! ### `waitKey` -/

@[simp] theorem State.waitKey_mem (x : Nibble) : (s.waitKey x).mem = s.mem := rfl
@[simp] theorem State.waitKey_v (x : Nibble) : (s.waitKey x).v = s.v := rfl
@[simp] theorem State.waitKey_i (x : Nibble) : (s.waitKey x).i = s.i := rfl
@[simp] theorem State.waitKey_pc (x : Nibble) : (s.waitKey x).pc = s.pc := rfl
@[simp] theorem State.waitKey_sp (x : Nibble) : (s.waitKey x).sp = s.sp := rfl
@[simp] theorem State.waitKey_stack (x : Nibble) : (s.waitKey x).stack = s.stack := rfl
@[simp] theorem State.waitKey_dt (x : Nibble) : (s.waitKey x).dt = s.dt := rfl
@[simp] theorem State.waitKey_st (x : Nibble) : (s.waitKey x).st = s.st := rfl
@[simp] theorem State.waitKey_paused (x : Nibble) : (s.waitKey x).paused = true := rfl
@[simp] theorem State.waitKey_pending (x : Nibble) : (s.waitKey x).pending = x := rfl
@[simp] theorem State.waitKey_fault (x : Nibble) : (s.waitKey x).fault = s.fault := rfl
@[simp] theorem State.waitKey_fb (x : Nibble) : (s.waitKey x).fb = s.fb := rfl
@[simp] theorem State.waitKey_trace (x : Nibble) : (s.waitKey x).trace = s.trace := rfl
@[simp] theorem State.waitKey_cfg (x : Nibble) : (s.waitKey x).cfg = s.cfg := rfl
@[simp] theorem State.waitKey_draws (x : Nibble) : (s.waitKey x).draws = s.draws := rfl
@[simp] theorem State.waitKey_drawCount (x : Nibble) : (s.waitKey x).drawCount = s.drawCount := rfl
@[simp] theorem State.waitKey_answers (x : Nibble) : (s.waitKey x).answers = s.answers := rfl
@[simp] theorem State.waitKey_askCount (x : Nibble) : (s.waitKey x).askCount = s.askCount := rfl
@[simp] theorem State.waitKey_host (x : Nibble) : (s.waitKey x).host = s.host := rfl
@[simp] theorem State.waitKey_hostCount (x : Nibble) : (s.waitKey x).hostCount = s.hostCount := rfl
@[simp] theorem State.waitKey_loadRefused (x : Nibble) : (s.waitKey x).loadRefused = s.loadRefused := rfl
@[simp] theorem State.waitKey_phase (x : Nibble) : (s.waitKey x).phase = s.phase := rfl

/-! ### `clearDisplay` -/

@[simp] theorem State.clearDisplay_mem : (s.clearDisplay).mem = s.mem := rfl
@[simp] theorem State.clearDisplay_v : (s.clearDisplay).v = s.v := rfl
@[simp] theorem State.clearDisplay_i : (s.clearDisplay).i = s.i := rfl
@[simp] theorem State.clearDisplay_pc : (s.clearDisplay).pc = s.pc := rfl
@[simp] theorem State.clearDisplay_sp : (s.clearDisplay).sp = s.sp := rfl
@[simp] theorem State.clearDisplay_stack : (s.clearDisplay).stack = s.stack := rfl
@[simp] theorem State.clearDisplay_dt : (s.clearDisplay).dt = s.dt := rfl
@[simp] theorem State.clearDisplay_st : (s.clearDisplay).st = s.st := rfl
@[simp] theorem State.clearDisplay_paused : (s.clearDisplay).paused = s.paused := rfl
@[simp] theorem State.clearDisplay_pending : (s.clearDisplay).pending = s.pending := rfl
@[simp] theorem State.clearDisplay_fault : (s.clearDisplay).fault = s.fault := rfl
@[simp] theorem State.clearDisplay_fb : (s.clearDisplay).fb = Vector.replicate 32 0#64 := rfl
@[simp] theorem State.clearDisplay_trace : (s.clearDisplay).trace = s.trace ++ [.clear] := rfl
@[simp] theorem State.clearDisplay_cfg : (s.clearDisplay).cfg = s.cfg := rfl
@[simp] theorem State.clearDisplay_draws : (s.clearDisplay).draws = s.draws := rfl
@[simp] theorem State.clearDisplay_drawCount : (s.clearDisplay).drawCount = s.drawCount := rfl
@[simp] theorem State.clearDisplay_answers : (s.clearDisplay).answers = s.answers := rfl
@[simp] theorem State.clearDisplay_askCount : (s.clearDisplay).askCount = s.askCount := rfl
@[simp] theorem State.clearDisplay_host : (s.clearDisplay).host = s.host := rfl
@[simp] theorem State.clearDisplay_hostCount : (s.clearDisplay).hostCount = s.hostCount := rfl
@[simp] theorem State.clearDisplay_loadRefused : (s.clearDisplay).loadRefused = s.loadRefused := rfl
@[simp] theorem State.clearDisplay_phase : (s.clearDisplay).phase = s.phase := rfl

/-! ### `togglePixel` -/

@[simp] theorem State.togglePixel_mem (x : Fin 64) (y : Fin 32) : (s.togglePixel x y).mem = s.mem := rfl
@[simp] theorem State.togglePixel_v (x : Fin 64) (y : Fin 32) : (s.togglePixel x y).v = s.v := rfl
@[simp] theorem State.togglePixel_i (x : Fin 64) (y : Fin 32) : (s.togglePixel x y).i = s.i := rfl
@[simp] theorem State.togglePixel_pc (x : Fin 64) (y : Fin 32) : (s.togglePixel x y).pc = s.pc := rfl
@[simp] theorem State.togglePixel_sp (x : Fin 64) (y : Fin 32) : (s.togglePixel x y).sp = s.sp := rfl
@[simp] theorem State.togglePixel_stack (x : Fin 64) (y : Fin 32) : (s.togglePixel x y).stack = s.stack := rfl
@[simp] theorem State.togglePixel_dt (x : Fin 64) (y : Fin 32) : (s.togglePixel x y).dt = s.dt := rfl
@[simp] theorem State.togglePixel_st (x : Fin 64) (y : Fin 32) : (s.togglePixel x y).st = s.st := rfl
@[simp] theorem State.togglePixel_paused (x : Fin 64) (y : Fin 32) : (s.togglePixel x y).paused = s.paused := rfl
@[simp] theorem State.togglePixel_pending (x : Fin 64) (y : Fin 32) : (s.togglePixel x y).pending = s.pending := rfl
@[simp] theorem State.togglePixel_fault (x : Fin 64) (y : Fin 32) : (s.togglePixel x y).fault = s.fault := rfl
@[simp] theorem State.togglePixel_fb (x : Fin 64) (y : Fin 32) : (s.togglePixel x y).fb = s.fb.set y.val (s.fb[y.val] ^^^ BitVec.twoPow 64 x.val) := rfl
@[simp] theorem State.togglePixel_trace (x : Fin 64) (y : Fin 32) : (s.togglePixel x y).trace = s.trace ++ [.setPixel x y] := rfl
@[simp] theorem State.togglePixel_cfg (x : Fin 64) (y : Fin 32) : (s.togglePixel x y).cfg = s.cfg := rfl
@[simp] theorem State.togglePixel_draws (x : Fin 64) (y : Fin 32) : (s.togglePixel x y).draws = s.draws := rfl
@[simp] theorem State.togglePixel_drawCount (x : Fin 64) (y : Fin 32) : (s.togglePixel x y).drawCount = s.drawCount := rfl
@[simp] theorem State.togglePixel_answers (x : Fin 64) (y : Fin 32) : (s.togglePixel x y).answers = s.answers := rfl
@[simp] theorem State.togglePixel_askCount (x : Fin 64) (y : Fin 32) : (s.togglePixel x y).askCount = s.askCount := rfl
@[simp] theorem State.togglePixel_host (x : Fin 64) (y : Fin 32) : (s.togglePixel x y).host = s.host := rfl
@[simp] theorem State.togglePixel_hostCount (x : Fin 64) (y : Fin 32) : (s.togglePixel x y).hostCount = s.hostCount := rfl
@[simp] theorem State.togglePixel_loadRefused (x : Fin 64) (y : Fin 32) : (s.togglePixel x y).loadRefused = s.loadRefused := rfl
@[simp] theorem State.togglePixel_phase (x : Fin 64) (y : Fin 32) : (s.togglePixel x y).phase = s.phase := rfl

/-! ### `timerTick` -/

@[simp] theorem State.timerTick_mem : (s.timerTick).mem = s.mem := rfl
@[simp] theorem State.timerTick_v : (s.timerTick).v = s.v := rfl
@[simp] theorem State.timerTick_i : (s.timerTick).i = s.i := rfl
@[simp] theorem State.timerTick_pc : (s.timerTick).pc = s.pc := rfl
@[simp] theorem State.timerTick_sp : (s.timerTick).sp = s.sp := rfl
@[simp] theorem State.timerTick_stack : (s.timerTick).stack = s.stack := rfl
@[simp] theorem State.timerTick_dt : (s.timerTick).dt = tickDown s.dt := rfl
@[simp] theorem State.timerTick_st : (s.timerTick).st = tickDown s.st := rfl
@[simp] theorem State.timerTick_paused : (s.timerTick).paused = s.paused := rfl
@[simp] theorem State.timerTick_pending : (s.timerTick).pending = s.pending := rfl
@[simp] theorem State.timerTick_fault : (s.timerTick).fault = s.fault := rfl
@[simp] theorem State.timerTick_fb : (s.timerTick).fb = s.fb := rfl
@[simp] theorem State.timerTick_trace : (s.timerTick).trace = s.trace := rfl
@[simp] theorem State.timerTick_cfg : (s.timerTick).cfg = s.cfg := rfl
@[simp] theorem State.timerTick_draws : (s.timerTick).draws = s.draws := rfl
@[simp] theorem State.timerTick_drawCount : (s.timerTick).drawCount = s.drawCount := rfl
@[simp] theorem State.timerTick_answers : (s.timerTick).answers = s.answers := rfl
@[simp] theorem State.timerTick_askCount : (s.timerTick).askCount = s.askCount := rfl
@[simp] theorem State.timerTick_host : (s.timerTick).host = s.host := rfl
@[simp] theorem State.timerTick_hostCount : (s.timerTick).hostCount = s.hostCount := rfl
@[simp] theorem State.timerTick_loadRefused : (s.timerTick).loadRefused = s.loadRefused := rfl
@[simp] theorem State.timerTick_phase : (s.timerTick).phase = s.phase := rfl

/-! ### `hostTaken` -/

@[simp] theorem State.hostTaken_mem : (s.hostTaken).mem = s.mem := rfl
@[simp] theorem State.hostTaken_v : (s.hostTaken).v = s.v := rfl
@[simp] theorem State.hostTaken_i : (s.hostTaken).i = s.i := rfl
@[simp] theorem State.hostTaken_pc : (s.hostTaken).pc = s.pc := rfl
@[simp] theorem State.hostTaken_sp : (s.hostTaken).sp = s.sp := rfl
@[simp] theorem State.hostTaken_stack : (s.hostTaken).stack = s.stack := rfl
@[simp] theorem State.hostTaken_dt : (s.hostTaken).dt = s.dt := rfl
@[simp] theorem State.hostTaken_st : (s.hostTaken).st = s.st := rfl
@[simp] theorem State.hostTaken_paused : (s.hostTaken).paused = s.paused := rfl
@[simp] theorem State.hostTaken_pending : (s.hostTaken).pending = s.pending := rfl
@[simp] theorem State.hostTaken_fault : (s.hostTaken).fault = s.fault := rfl
@[simp] theorem State.hostTaken_fb : (s.hostTaken).fb = s.fb := rfl
@[simp] theorem State.hostTaken_trace : (s.hostTaken).trace = s.trace := rfl
@[simp] theorem State.hostTaken_cfg : (s.hostTaken).cfg = s.cfg := rfl
@[simp] theorem State.hostTaken_draws : (s.hostTaken).draws = s.draws := rfl
@[simp] theorem State.hostTaken_drawCount : (s.hostTaken).drawCount = s.drawCount := rfl
@[simp] theorem State.hostTaken_answers : (s.hostTaken).answers = s.answers := rfl
@[simp] theorem State.hostTaken_askCount : (s.hostTaken).askCount = s.askCount := rfl
@[simp] theorem State.hostTaken_host : (s.hostTaken).host = s.host.tail := rfl
@[simp] theorem State.hostTaken_hostCount : (s.hostTaken).hostCount = s.hostCount + 1 := rfl
@[simp] theorem State.hostTaken_loadRefused : (s.hostTaken).loadRefused = false := rfl
@[simp] theorem State.hostTaken_phase : (s.hostTaken).phase = s.phase := rfl

/-! ### `refuseLoad` -/

@[simp] theorem State.refuseLoad_mem : (s.refuseLoad).mem = s.mem := rfl
@[simp] theorem State.refuseLoad_v : (s.refuseLoad).v = s.v := rfl
@[simp] theorem State.refuseLoad_i : (s.refuseLoad).i = s.i := rfl
@[simp] theorem State.refuseLoad_pc : (s.refuseLoad).pc = s.pc := rfl
@[simp] theorem State.refuseLoad_sp : (s.refuseLoad).sp = s.sp := rfl
@[simp] theorem State.refuseLoad_stack : (s.refuseLoad).stack = s.stack := rfl
@[simp] theorem State.refuseLoad_dt : (s.refuseLoad).dt = s.dt := rfl
@[simp] theorem State.refuseLoad_st : (s.refuseLoad).st = s.st := rfl
@[simp] theorem State.refuseLoad_paused : (s.refuseLoad).paused = s.paused := rfl
@[simp] theorem State.refuseLoad_pending : (s.refuseLoad).pending = s.pending := rfl
@[simp] theorem State.refuseLoad_fault : (s.refuseLoad).fault = s.fault := rfl
@[simp] theorem State.refuseLoad_fb : (s.refuseLoad).fb = s.fb := rfl
@[simp] theorem State.refuseLoad_trace : (s.refuseLoad).trace = s.trace := rfl
@[simp] theorem State.refuseLoad_cfg : (s.refuseLoad).cfg = s.cfg := rfl
@[simp] theorem State.refuseLoad_draws : (s.refuseLoad).draws = s.draws := rfl
@[simp] theorem State.refuseLoad_drawCount : (s.refuseLoad).drawCount = s.drawCount := rfl
@[simp] theorem State.refuseLoad_answers : (s.refuseLoad).answers = s.answers := rfl
@[simp] theorem State.refuseLoad_askCount : (s.refuseLoad).askCount = s.askCount := rfl
@[simp] theorem State.refuseLoad_host : (s.refuseLoad).host = s.host := rfl
@[simp] theorem State.refuseLoad_hostCount : (s.refuseLoad).hostCount = s.hostCount := rfl
@[simp] theorem State.refuseLoad_loadRefused : (s.refuseLoad).loadRefused = true := rfl
@[simp] theorem State.refuseLoad_phase : (s.refuseLoad).phase = s.phase := rfl

/-! ### `openFrame` -/

@[simp] theorem State.openFrame_mem : (s.openFrame).mem = s.mem := rfl
@[simp] theorem State.openFrame_v : (s.openFrame).v = s.v := rfl
@[simp] theorem State.openFrame_i : (s.openFrame).i = s.i := rfl
@[simp] theorem State.openFrame_pc : (s.openFrame).pc = s.pc := rfl
@[simp] theorem State.openFrame_sp : (s.openFrame).sp = s.sp := rfl
@[simp] theorem State.openFrame_stack : (s.openFrame).stack = s.stack := rfl
@[simp] theorem State.openFrame_dt : (s.openFrame).dt = s.dt := rfl
@[simp] theorem State.openFrame_st : (s.openFrame).st = s.st := rfl
@[simp] theorem State.openFrame_paused : (s.openFrame).paused = s.paused := rfl
@[simp] theorem State.openFrame_pending : (s.openFrame).pending = s.pending := rfl
@[simp] theorem State.openFrame_fault : (s.openFrame).fault = s.fault := rfl
@[simp] theorem State.openFrame_fb : (s.openFrame).fb = s.fb := rfl
@[simp] theorem State.openFrame_trace : (s.openFrame).trace = s.trace := rfl
@[simp] theorem State.openFrame_cfg : (s.openFrame).cfg = s.cfg := rfl
@[simp] theorem State.openFrame_draws : (s.openFrame).draws = s.draws := rfl
@[simp] theorem State.openFrame_drawCount : (s.openFrame).drawCount = s.drawCount := rfl
@[simp] theorem State.openFrame_answers : (s.openFrame).answers = s.answers := rfl
@[simp] theorem State.openFrame_askCount : (s.openFrame).askCount = s.askCount := rfl
@[simp] theorem State.openFrame_host : (s.openFrame).host = s.host := rfl
@[simp] theorem State.openFrame_hostCount : (s.openFrame).hostCount = s.hostCount := rfl
@[simp] theorem State.openFrame_loadRefused : (s.openFrame).loadRefused = s.loadRefused := rfl
@[simp] theorem State.openFrame_phase : (s.openFrame).phase = .inFrame s.cfg.speed := rfl

/-! ### `afterSlot` -/

@[simp] theorem State.afterSlot_mem (n : Nat) : (s.afterSlot n).mem = s.mem := rfl
@[simp] theorem State.afterSlot_v (n : Nat) : (s.afterSlot n).v = s.v := rfl
@[simp] theorem State.afterSlot_i (n : Nat) : (s.afterSlot n).i = s.i := rfl
@[simp] theorem State.afterSlot_pc (n : Nat) : (s.afterSlot n).pc = s.pc := rfl
@[simp] theorem State.afterSlot_sp (n : Nat) : (s.afterSlot n).sp = s.sp := rfl
@[simp] theorem State.afterSlot_stack (n : Nat) : (s.afterSlot n).stack = s.stack := rfl
@[simp] theorem State.afterSlot_dt (n : Nat) : (s.afterSlot n).dt = s.dt := rfl
@[simp] theorem State.afterSlot_st (n : Nat) : (s.afterSlot n).st = s.st := rfl
@[simp] theorem State.afterSlot_paused (n : Nat) : (s.afterSlot n).paused = s.paused := rfl
@[simp] theorem State.afterSlot_pending (n : Nat) : (s.afterSlot n).pending = s.pending := rfl
@[simp] theorem State.afterSlot_fault (n : Nat) : (s.afterSlot n).fault = s.fault := rfl
@[simp] theorem State.afterSlot_fb (n : Nat) : (s.afterSlot n).fb = s.fb := rfl
@[simp] theorem State.afterSlot_trace (n : Nat) : (s.afterSlot n).trace = s.trace := rfl
@[simp] theorem State.afterSlot_cfg (n : Nat) : (s.afterSlot n).cfg = s.cfg := rfl
@[simp] theorem State.afterSlot_draws (n : Nat) : (s.afterSlot n).draws = s.draws := rfl
@[simp] theorem State.afterSlot_drawCount (n : Nat) : (s.afterSlot n).drawCount = s.drawCount := rfl
@[simp] theorem State.afterSlot_answers (n : Nat) : (s.afterSlot n).answers = s.answers := rfl
@[simp] theorem State.afterSlot_askCount (n : Nat) : (s.afterSlot n).askCount = s.askCount := rfl
@[simp] theorem State.afterSlot_host (n : Nat) : (s.afterSlot n).host = s.host := rfl
@[simp] theorem State.afterSlot_hostCount (n : Nat) : (s.afterSlot n).hostCount = s.hostCount := rfl
@[simp] theorem State.afterSlot_loadRefused (n : Nat) : (s.afterSlot n).loadRefused = s.loadRefused := rfl
@[simp] theorem State.afterSlot_phase (n : Nat) : (s.afterSlot n).phase = if s.fault.isSome then .betweenFrames else .inFrame n := rfl

/-! ### `skipIf` -/

@[simp] theorem State.skipIf_mem (c : Bool) : (s.skipIf c).mem = s.mem := by
  cases c <;> rfl
@[simp] theorem State.skipIf_v (c : Bool) : (s.skipIf c).v = s.v := by
  cases c <;> rfl
@[simp] theorem State.skipIf_i (c : Bool) : (s.skipIf c).i = s.i := by
  cases c <;> rfl
@[simp] theorem State.skipIf_pc (c : Bool) : (s.skipIf c).pc = if c then s.pc + 2#16 else s.pc := by
  cases c <;> rfl
@[simp] theorem State.skipIf_sp (c : Bool) : (s.skipIf c).sp = s.sp := by
  cases c <;> rfl
@[simp] theorem State.skipIf_stack (c : Bool) : (s.skipIf c).stack = s.stack := by
  cases c <;> rfl
@[simp] theorem State.skipIf_dt (c : Bool) : (s.skipIf c).dt = s.dt := by
  cases c <;> rfl
@[simp] theorem State.skipIf_st (c : Bool) : (s.skipIf c).st = s.st := by
  cases c <;> rfl
@[simp] theorem State.skipIf_paused (c : Bool) : (s.skipIf c).paused = s.paused := by
  cases c <;> rfl
@[simp] theorem State.skipIf_pending (c : Bool) : (s.skipIf c).pending = s.pending := by
  cases c <;> rfl
@[simp] theorem State.skipIf_fault (c : Bool) : (s.skipIf c).fault = s.fault := by
  cases c <;> rfl
@[simp] theorem State.skipIf_fb (c : Bool) : (s.skipIf c).fb = s.fb := by
  cases c <;> rfl
@[simp] theorem State.skipIf_trace (c : Bool) : (s.skipIf c).trace = s.trace := by
  cases c <;> rfl
@[simp] theorem State.skipIf_cfg (c : Bool) : (s.skipIf c).cfg = s.cfg := by
  cases c <;> rfl
@[simp] theorem State.skipIf_draws (c : Bool) : (s.skipIf c).draws = s.draws := by
  cases c <;> rfl
@[simp] theorem State.skipIf_drawCount (c : Bool) : (s.skipIf c).drawCount = s.drawCount := by
  cases c <;> rfl
@[simp] theorem State.skipIf_answers (c : Bool) : (s.skipIf c).answers = s.answers := by
  cases c <;> rfl
@[simp] theorem State.skipIf_askCount (c : Bool) : (s.skipIf c).askCount = s.askCount := by
  cases c <;> rfl
@[simp] theorem State.skipIf_host (c : Bool) : (s.skipIf c).host = s.host := by
  cases c <;> rfl
@[simp] theorem State.skipIf_hostCount (c : Bool) : (s.skipIf c).hostCount = s.hostCount := by
  cases c <;> rfl
@[simp] theorem State.skipIf_loadRefused (c : Bool) : (s.skipIf c).loadRefused = s.loadRefused := by
  cases c <;> rfl
@[simp] theorem State.skipIf_phase (c : Bool) : (s.skipIf c).phase = s.phase := by
  cases c <;> rfl

/-! ### `writeResultAndFlag` -/

@[simp] theorem State.writeResultAndFlag_mem (x : Nibble) (r f : Byte) : (s.writeResultAndFlag x r f).mem = s.mem := by
  unfold State.writeResultAndFlag; split <;> rfl
@[simp] theorem State.writeResultAndFlag_i (x : Nibble) (r f : Byte) : (s.writeResultAndFlag x r f).i = s.i := by
  unfold State.writeResultAndFlag; split <;> rfl
@[simp] theorem State.writeResultAndFlag_pc (x : Nibble) (r f : Byte) : (s.writeResultAndFlag x r f).pc = s.pc := by
  unfold State.writeResultAndFlag; split <;> rfl
@[simp] theorem State.writeResultAndFlag_sp (x : Nibble) (r f : Byte) : (s.writeResultAndFlag x r f).sp = s.sp := by
  unfold State.writeResultAndFlag; split <;> rfl
@[simp] theorem State.writeResultAndFlag_stack (x : Nibble) (r f : Byte) : (s.writeResultAndFlag x r f).stack = s.stack := by
  unfold State.writeResultAndFlag; split <;> rfl
@[simp] theorem State.writeResultAndFlag_dt (x : Nibble) (r f : Byte) : (s.writeResultAndFlag x r f).dt = s.dt := by
  unfold State.writeResultAndFlag; split <;> rfl
@[simp] theorem State.writeResultAndFlag_st (x : Nibble) (r f : Byte) : (s.writeResultAndFlag x r f).st = s.st := by
  unfold State.writeResultAndFlag; split <;> rfl
@[simp] theorem State.writeResultAndFlag_paused (x : Nibble) (r f : Byte) : (s.writeResultAndFlag x r f).paused = s.paused := by
  unfold State.writeResultAndFlag; split <;> rfl
@[simp] theorem State.writeResultAndFlag_pending (x : Nibble) (r f : Byte) : (s.writeResultAndFlag x r f).pending = s.pending := by
  unfold State.writeResultAndFlag; split <;> rfl
@[simp] theorem State.writeResultAndFlag_fault (x : Nibble) (r f : Byte) : (s.writeResultAndFlag x r f).fault = s.fault := by
  unfold State.writeResultAndFlag; split <;> rfl
@[simp] theorem State.writeResultAndFlag_fb (x : Nibble) (r f : Byte) : (s.writeResultAndFlag x r f).fb = s.fb := by
  unfold State.writeResultAndFlag; split <;> rfl
@[simp] theorem State.writeResultAndFlag_trace (x : Nibble) (r f : Byte) : (s.writeResultAndFlag x r f).trace = s.trace := by
  unfold State.writeResultAndFlag; split <;> rfl
@[simp] theorem State.writeResultAndFlag_cfg (x : Nibble) (r f : Byte) : (s.writeResultAndFlag x r f).cfg = s.cfg := by
  unfold State.writeResultAndFlag; split <;> rfl
@[simp] theorem State.writeResultAndFlag_draws (x : Nibble) (r f : Byte) : (s.writeResultAndFlag x r f).draws = s.draws := by
  unfold State.writeResultAndFlag; split <;> rfl
@[simp] theorem State.writeResultAndFlag_drawCount (x : Nibble) (r f : Byte) : (s.writeResultAndFlag x r f).drawCount = s.drawCount := by
  unfold State.writeResultAndFlag; split <;> rfl
@[simp] theorem State.writeResultAndFlag_answers (x : Nibble) (r f : Byte) : (s.writeResultAndFlag x r f).answers = s.answers := by
  unfold State.writeResultAndFlag; split <;> rfl
@[simp] theorem State.writeResultAndFlag_askCount (x : Nibble) (r f : Byte) : (s.writeResultAndFlag x r f).askCount = s.askCount := by
  unfold State.writeResultAndFlag; split <;> rfl
@[simp] theorem State.writeResultAndFlag_host (x : Nibble) (r f : Byte) : (s.writeResultAndFlag x r f).host = s.host := by
  unfold State.writeResultAndFlag; split <;> rfl
@[simp] theorem State.writeResultAndFlag_hostCount (x : Nibble) (r f : Byte) : (s.writeResultAndFlag x r f).hostCount = s.hostCount := by
  unfold State.writeResultAndFlag; split <;> rfl
@[simp] theorem State.writeResultAndFlag_loadRefused (x : Nibble) (r f : Byte) : (s.writeResultAndFlag x r f).loadRefused = s.loadRefused := by
  unfold State.writeResultAndFlag; split <;> rfl
@[simp] theorem State.writeResultAndFlag_phase (x : Nibble) (r f : Byte) : (s.writeResultAndFlag x r f).phase = s.phase := by
  unfold State.writeResultAndFlag; split <;> rfl

/-! ### `timerStep` -/

@[simp] theorem State.timerStep_mem : (s.timerStep).mem = s.mem := by
  unfold State.timerStep; split <;> rfl
@[simp] theorem State.timerStep_v : (s.timerStep).v = s.v := by
  unfold State.timerStep; split <;> rfl
@[simp] theorem State.timerStep_i : (s.timerStep).i = s.i := by
  unfold State.timerStep; split <;> rfl
@[simp] theorem State.timerStep_pc : (s.timerStep).pc = s.pc := by
  unfold State.timerStep; split <;> rfl
@[simp] theorem State.timerStep_sp : (s.timerStep).sp = s.sp := by
  unfold State.timerStep; split <;> rfl
@[simp] theorem State.timerStep_stack : (s.timerStep).stack = s.stack := by
  unfold State.timerStep; split <;> rfl
@[simp] theorem State.timerStep_paused : (s.timerStep).paused = s.paused := by
  unfold State.timerStep; split <;> rfl
@[simp] theorem State.timerStep_pending : (s.timerStep).pending = s.pending := by
  unfold State.timerStep; split <;> rfl
@[simp] theorem State.timerStep_fault : (s.timerStep).fault = s.fault := by
  unfold State.timerStep; split <;> rfl
@[simp] theorem State.timerStep_fb : (s.timerStep).fb = s.fb := by
  unfold State.timerStep; split <;> rfl
@[simp] theorem State.timerStep_trace : (s.timerStep).trace = s.trace := by
  unfold State.timerStep; split <;> rfl
@[simp] theorem State.timerStep_cfg : (s.timerStep).cfg = s.cfg := by
  unfold State.timerStep; split <;> rfl
@[simp] theorem State.timerStep_draws : (s.timerStep).draws = s.draws := by
  unfold State.timerStep; split <;> rfl
@[simp] theorem State.timerStep_drawCount : (s.timerStep).drawCount = s.drawCount := by
  unfold State.timerStep; split <;> rfl
@[simp] theorem State.timerStep_answers : (s.timerStep).answers = s.answers := by
  unfold State.timerStep; split <;> rfl
@[simp] theorem State.timerStep_askCount : (s.timerStep).askCount = s.askCount := by
  unfold State.timerStep; split <;> rfl
@[simp] theorem State.timerStep_host : (s.timerStep).host = s.host := by
  unfold State.timerStep; split <;> rfl
@[simp] theorem State.timerStep_hostCount : (s.timerStep).hostCount = s.hostCount := by
  unfold State.timerStep; split <;> rfl
@[simp] theorem State.timerStep_loadRefused : (s.timerStep).loadRefused = s.loadRefused := by
  unfold State.timerStep; split <;> rfl
@[simp] theorem State.timerStep_phase : (s.timerStep).phase = s.phase := by
  unfold State.timerStep; split <;> rfl

end Sys2Proof.Machine
end

