-- ==== Sys2Proof/Laws/Reads.lean ====
section
/-! SUPPORT. What the reads of the state (`getV`, `peek`, `pixel`, `initAt`) give after an update that does not
concern them: they are as before. -/

namespace Sys2Proof.Machine

variable (s : State)

/-- `getV` reads the register file alone. -/
theorem State.getV_congr {s t : State} (h : t.v = s.v) (r : Nibble) : t.getV r = s.getV r := by
  simp only [State.getV, h]

/-- `pixel` reads the framebuffer alone. -/
theorem State.pixel_congr {s t : State} (h : t.fb = s.fb) (x : Fin 64) (y : Fin 32) :
    t.pixel x y = s.pixel x y := by
  simp only [State.pixel, h]

/-- `initAt` reads the parameters alone. -/
theorem State.initAt_congr {s t : State} (h : t.cfg = s.cfg) : t.initAt = s.initAt := by
  funext a
  simp only [State.initAt, h]

/-- `peek` reads memory and the parameters alone. -/
theorem State.peek_congr {s t : State} (hm : t.mem = s.mem) (hc : t.cfg = s.cfg) (a : Nat) :
    t.peek a = s.peek a := by
  simp only [State.peek, State.initAt_congr hc, hm]

/-- The canonical form is about memory and the parameters alone. -/
theorem State.memOk_congr {s t : State} (hm : t.mem = s.mem) (hc : t.cfg = s.cfg) :
    t.MemOk ↔ s.MemOk := by
  simp only [State.MemOk, State.initAt_congr hc, hm]


/-! ### `getV` -/

@[simp] theorem State.getV_setI (w : Word) (r : Nibble) : (s.setI w).getV r = s.getV r :=
  State.getV_congr (by simp) r
@[simp] theorem State.getV_setPc (w : Word) (r : Nibble) : (s.setPc w).getV r = s.getV r :=
  State.getV_congr (by simp) r
@[simp] theorem State.getV_setDt (b : Byte) (r : Nibble) : (s.setDt b).getV r = s.getV r :=
  State.getV_congr (by simp) r
@[simp] theorem State.getV_setSt (b : Byte) (r : Nibble) : (s.setSt b).getV r = s.getV r :=
  State.getV_congr (by simp) r
@[simp] theorem State.getV_poke (p : Nat) (b : Byte) (r : Nibble) : (s.poke p b).getV r = s.getV r :=
  State.getV_congr (by simp) r
@[simp] theorem State.getV_emit (e : Event) (r : Nibble) : (s.emit e).getV r = s.getV r :=
  State.getV_congr (by simp) r
@[simp] theorem State.getV_advance (r : Nibble) : (s.advance).getV r = s.getV r :=
  State.getV_congr (by simp) r
@[simp] theorem State.getV_raiseAt (p : Word) (c : FaultCause) (r : Nibble) : (s.raiseAt p c).getV r = s.getV r :=
  State.getV_congr (by simp) r
@[simp] theorem State.getV_raise (c : FaultCause) (r : Nibble) : (s.raise c).getV r = s.getV r :=
  State.getV_congr (by simp) r
@[simp] theorem State.getV_drawn (r : Nibble) : (s.drawn).getV r = s.getV r :=
  State.getV_congr (by simp) r
@[simp] theorem State.getV_asked (r : Nibble) : (s.asked).getV r = s.getV r :=
  State.getV_congr (by simp) r
@[simp] theorem State.getV_waitKey (q : Nibble) (r : Nibble) : (s.waitKey q).getV r = s.getV r :=
  State.getV_congr (by simp) r
@[simp] theorem State.getV_clearDisplay (r : Nibble) : (s.clearDisplay).getV r = s.getV r :=
  State.getV_congr (by simp) r
@[simp] theorem State.getV_togglePixel (p : Fin 64) (q : Fin 32) (r : Nibble) : (s.togglePixel p q).getV r = s.getV r :=
  State.getV_congr (by simp) r
@[simp] theorem State.getV_timerTick (r : Nibble) : (s.timerTick).getV r = s.getV r :=
  State.getV_congr (by simp) r
@[simp] theorem State.getV_hostTaken (r : Nibble) : (s.hostTaken).getV r = s.getV r :=
  State.getV_congr (by simp) r
@[simp] theorem State.getV_refuseLoad (r : Nibble) : (s.refuseLoad).getV r = s.getV r :=
  State.getV_congr (by simp) r
@[simp] theorem State.getV_openFrame (r : Nibble) : (s.openFrame).getV r = s.getV r :=
  State.getV_congr (by simp) r
@[simp] theorem State.getV_afterSlot (n : Nat) (r : Nibble) : (s.afterSlot n).getV r = s.getV r :=
  State.getV_congr (by simp) r
@[simp] theorem State.getV_skipIf (c : Bool) (r : Nibble) : (s.skipIf c).getV r = s.getV r :=
  State.getV_congr (by simp) r
@[simp] theorem State.getV_timerStep (r : Nibble) : (s.timerStep).getV r = s.getV r :=
  State.getV_congr (by simp) r

/-! ### `peek` -/

@[simp] theorem State.peek_setI (w : Word) (a : Nat) : (s.setI w).peek a = s.peek a :=
  State.peek_congr (by simp) (by simp) a
@[simp] theorem State.peek_setPc (w : Word) (a : Nat) : (s.setPc w).peek a = s.peek a :=
  State.peek_congr (by simp) (by simp) a
@[simp] theorem State.peek_setDt (b : Byte) (a : Nat) : (s.setDt b).peek a = s.peek a :=
  State.peek_congr (by simp) (by simp) a
@[simp] theorem State.peek_setSt (b : Byte) (a : Nat) : (s.setSt b).peek a = s.peek a :=
  State.peek_congr (by simp) (by simp) a
@[simp] theorem State.peek_setV (q : Nibble) (b : Byte) (a : Nat) : (s.setV q b).peek a = s.peek a :=
  State.peek_congr (by simp) (by simp) a
@[simp] theorem State.peek_emit (e : Event) (a : Nat) : (s.emit e).peek a = s.peek a :=
  State.peek_congr (by simp) (by simp) a
@[simp] theorem State.peek_advance (a : Nat) : (s.advance).peek a = s.peek a :=
  State.peek_congr (by simp) (by simp) a
@[simp] theorem State.peek_raiseAt (p : Word) (c : FaultCause) (a : Nat) : (s.raiseAt p c).peek a = s.peek a :=
  State.peek_congr (by simp) (by simp) a
@[simp] theorem State.peek_raise (c : FaultCause) (a : Nat) : (s.raise c).peek a = s.peek a :=
  State.peek_congr (by simp) (by simp) a
@[simp] theorem State.peek_drawn (a : Nat) : (s.drawn).peek a = s.peek a :=
  State.peek_congr (by simp) (by simp) a
@[simp] theorem State.peek_asked (a : Nat) : (s.asked).peek a = s.peek a :=
  State.peek_congr (by simp) (by simp) a
@[simp] theorem State.peek_waitKey (q : Nibble) (a : Nat) : (s.waitKey q).peek a = s.peek a :=
  State.peek_congr (by simp) (by simp) a
@[simp] theorem State.peek_clearDisplay (a : Nat) : (s.clearDisplay).peek a = s.peek a :=
  State.peek_congr (by simp) (by simp) a
@[simp] theorem State.peek_togglePixel (p : Fin 64) (q : Fin 32) (a : Nat) : (s.togglePixel p q).peek a = s.peek a :=
  State.peek_congr (by simp) (by simp) a
@[simp] theorem State.peek_timerTick (a : Nat) : (s.timerTick).peek a = s.peek a :=
  State.peek_congr (by simp) (by simp) a
@[simp] theorem State.peek_hostTaken (a : Nat) : (s.hostTaken).peek a = s.peek a :=
  State.peek_congr (by simp) (by simp) a
@[simp] theorem State.peek_refuseLoad (a : Nat) : (s.refuseLoad).peek a = s.peek a :=
  State.peek_congr (by simp) (by simp) a
@[simp] theorem State.peek_openFrame (a : Nat) : (s.openFrame).peek a = s.peek a :=
  State.peek_congr (by simp) (by simp) a
@[simp] theorem State.peek_afterSlot (n : Nat) (a : Nat) : (s.afterSlot n).peek a = s.peek a :=
  State.peek_congr (by simp) (by simp) a
@[simp] theorem State.peek_skipIf (c : Bool) (a : Nat) : (s.skipIf c).peek a = s.peek a :=
  State.peek_congr (by simp) (by simp) a
@[simp] theorem State.peek_writeResultAndFlag (q : Nibble) (b f : Byte) (a : Nat) : (s.writeResultAndFlag q b f).peek a = s.peek a :=
  State.peek_congr (by simp) (by simp) a
@[simp] theorem State.peek_timerStep (a : Nat) : (s.timerStep).peek a = s.peek a :=
  State.peek_congr (by simp) (by simp) a

/-! ### `pixel` -/

@[simp] theorem State.pixel_setI (w : Word) (x : Fin 64) (y : Fin 32) : (s.setI w).pixel x y = s.pixel x y :=
  State.pixel_congr (by simp) x y
@[simp] theorem State.pixel_setPc (w : Word) (x : Fin 64) (y : Fin 32) : (s.setPc w).pixel x y = s.pixel x y :=
  State.pixel_congr (by simp) x y
@[simp] theorem State.pixel_setDt (b : Byte) (x : Fin 64) (y : Fin 32) : (s.setDt b).pixel x y = s.pixel x y :=
  State.pixel_congr (by simp) x y
@[simp] theorem State.pixel_setSt (b : Byte) (x : Fin 64) (y : Fin 32) : (s.setSt b).pixel x y = s.pixel x y :=
  State.pixel_congr (by simp) x y
@[simp] theorem State.pixel_setV (q : Nibble) (b : Byte) (x : Fin 64) (y : Fin 32) : (s.setV q b).pixel x y = s.pixel x y :=
  State.pixel_congr (by simp) x y
@[simp] theorem State.pixel_poke (p : Nat) (b : Byte) (x : Fin 64) (y : Fin 32) : (s.poke p b).pixel x y = s.pixel x y :=
  State.pixel_congr (by simp) x y
@[simp] theorem State.pixel_emit (e : Event) (x : Fin 64) (y : Fin 32) : (s.emit e).pixel x y = s.pixel x y :=
  State.pixel_congr (by simp) x y
@[simp] theorem State.pixel_advance (x : Fin 64) (y : Fin 32) : (s.advance).pixel x y = s.pixel x y :=
  State.pixel_congr (by simp) x y
@[simp] theorem State.pixel_raiseAt (p : Word) (c : FaultCause) (x : Fin 64) (y : Fin 32) : (s.raiseAt p c).pixel x y = s.pixel x y :=
  State.pixel_congr (by simp) x y
@[simp] theorem State.pixel_raise (c : FaultCause) (x : Fin 64) (y : Fin 32) : (s.raise c).pixel x y = s.pixel x y :=
  State.pixel_congr (by simp) x y
@[simp] theorem State.pixel_drawn (x : Fin 64) (y : Fin 32) : (s.drawn).pixel x y = s.pixel x y :=
  State.pixel_congr (by simp) x y
@[simp] theorem State.pixel_asked (x : Fin 64) (y : Fin 32) : (s.asked).pixel x y = s.pixel x y :=
  State.pixel_congr (by simp) x y
@[simp] theorem State.pixel_waitKey (q : Nibble) (x : Fin 64) (y : Fin 32) : (s.waitKey q).pixel x y = s.pixel x y :=
  State.pixel_congr (by simp) x y
@[simp] theorem State.pixel_timerTick (x : Fin 64) (y : Fin 32) : (s.timerTick).pixel x y = s.pixel x y :=
  State.pixel_congr (by simp) x y
@[simp] theorem State.pixel_hostTaken (x : Fin 64) (y : Fin 32) : (s.hostTaken).pixel x y = s.pixel x y :=
  State.pixel_congr (by simp) x y
@[simp] theorem State.pixel_refuseLoad (x : Fin 64) (y : Fin 32) : (s.refuseLoad).pixel x y = s.pixel x y :=
  State.pixel_congr (by simp) x y
@[simp] theorem State.pixel_openFrame (x : Fin 64) (y : Fin 32) : (s.openFrame).pixel x y = s.pixel x y :=
  State.pixel_congr (by simp) x y
@[simp] theorem State.pixel_afterSlot (n : Nat) (x : Fin 64) (y : Fin 32) : (s.afterSlot n).pixel x y = s.pixel x y :=
  State.pixel_congr (by simp) x y
@[simp] theorem State.pixel_skipIf (c : Bool) (x : Fin 64) (y : Fin 32) : (s.skipIf c).pixel x y = s.pixel x y :=
  State.pixel_congr (by simp) x y
@[simp] theorem State.pixel_writeResultAndFlag (q : Nibble) (b f : Byte) (x : Fin 64) (y : Fin 32) : (s.writeResultAndFlag q b f).pixel x y = s.pixel x y :=
  State.pixel_congr (by simp) x y
@[simp] theorem State.pixel_timerStep (x : Fin 64) (y : Fin 32) : (s.timerStep).pixel x y = s.pixel x y :=
  State.pixel_congr (by simp) x y

/-! ### `initAt` -/

@[simp] theorem State.initAt_setI (w : Word) : (s.setI w).initAt = s.initAt :=
  State.initAt_congr (by simp)
@[simp] theorem State.initAt_setPc (w : Word) : (s.setPc w).initAt = s.initAt :=
  State.initAt_congr (by simp)
@[simp] theorem State.initAt_setDt (b : Byte) : (s.setDt b).initAt = s.initAt :=
  State.initAt_congr (by simp)
@[simp] theorem State.initAt_setSt (b : Byte) : (s.setSt b).initAt = s.initAt :=
  State.initAt_congr (by simp)
@[simp] theorem State.initAt_setV (q : Nibble) (b : Byte) : (s.setV q b).initAt = s.initAt :=
  State.initAt_congr (by simp)
@[simp] theorem State.initAt_poke (p : Nat) (b : Byte) : (s.poke p b).initAt = s.initAt :=
  State.initAt_congr (by simp)
@[simp] theorem State.initAt_emit (e : Event) : (s.emit e).initAt = s.initAt :=
  State.initAt_congr (by simp)
@[simp] theorem State.initAt_advance : (s.advance).initAt = s.initAt :=
  State.initAt_congr (by simp)
@[simp] theorem State.initAt_raiseAt (p : Word) (c : FaultCause) : (s.raiseAt p c).initAt = s.initAt :=
  State.initAt_congr (by simp)
@[simp] theorem State.initAt_raise (c : FaultCause) : (s.raise c).initAt = s.initAt :=
  State.initAt_congr (by simp)
@[simp] theorem State.initAt_drawn : (s.drawn).initAt = s.initAt :=
  State.initAt_congr (by simp)
@[simp] theorem State.initAt_asked : (s.asked).initAt = s.initAt :=
  State.initAt_congr (by simp)
@[simp] theorem State.initAt_waitKey (q : Nibble) : (s.waitKey q).initAt = s.initAt :=
  State.initAt_congr (by simp)
@[simp] theorem State.initAt_clearDisplay : (s.clearDisplay).initAt = s.initAt :=
  State.initAt_congr (by simp)
@[simp] theorem State.initAt_togglePixel (p : Fin 64) (q : Fin 32) : (s.togglePixel p q).initAt = s.initAt :=
  State.initAt_congr (by simp)
@[simp] theorem State.initAt_timerTick : (s.timerTick).initAt = s.initAt :=
  State.initAt_congr (by simp)
@[simp] theorem State.initAt_hostTaken : (s.hostTaken).initAt = s.initAt :=
  State.initAt_congr (by simp)
@[simp] theorem State.initAt_refuseLoad : (s.refuseLoad).initAt = s.initAt :=
  State.initAt_congr (by simp)
@[simp] theorem State.initAt_openFrame : (s.openFrame).initAt = s.initAt :=
  State.initAt_congr (by simp)
@[simp] theorem State.initAt_afterSlot (n : Nat) : (s.afterSlot n).initAt = s.initAt :=
  State.initAt_congr (by simp)
@[simp] theorem State.initAt_skipIf (c : Bool) : (s.skipIf c).initAt = s.initAt :=
  State.initAt_congr (by simp)
@[simp] theorem State.initAt_writeResultAndFlag (q : Nibble) (b f : Byte) : (s.writeResultAndFlag q b f).initAt = s.initAt :=
  State.initAt_congr (by simp)
@[simp] theorem State.initAt_timerStep : (s.timerStep).initAt = s.initAt :=
  State.initAt_congr (by simp)

/-! ### `withHostOf` -/

@[simp] theorem State.withHostOf_mem (t : State) : (t.withHostOf s).mem = t.mem := rfl
@[simp] theorem State.withHostOf_v (t : State) : (t.withHostOf s).v = t.v := rfl
@[simp] theorem State.withHostOf_i (t : State) : (t.withHostOf s).i = t.i := rfl
@[simp] theorem State.withHostOf_pc (t : State) : (t.withHostOf s).pc = t.pc := rfl
@[simp] theorem State.withHostOf_sp (t : State) : (t.withHostOf s).sp = t.sp := rfl
@[simp] theorem State.withHostOf_stack (t : State) : (t.withHostOf s).stack = t.stack := rfl
@[simp] theorem State.withHostOf_dt (t : State) : (t.withHostOf s).dt = t.dt := rfl
@[simp] theorem State.withHostOf_st (t : State) : (t.withHostOf s).st = t.st := rfl
@[simp] theorem State.withHostOf_paused (t : State) : (t.withHostOf s).paused = t.paused := rfl
@[simp] theorem State.withHostOf_pending (t : State) : (t.withHostOf s).pending = t.pending := rfl
@[simp] theorem State.withHostOf_fault (t : State) : (t.withHostOf s).fault = t.fault := rfl
@[simp] theorem State.withHostOf_fb (t : State) : (t.withHostOf s).fb = t.fb := rfl
@[simp] theorem State.withHostOf_trace (t : State) : (t.withHostOf s).trace = t.trace := rfl
@[simp] theorem State.withHostOf_cfg (t : State) : (t.withHostOf s).cfg = t.cfg := rfl
@[simp] theorem State.withHostOf_draws (t : State) : (t.withHostOf s).draws = t.draws := rfl
@[simp] theorem State.withHostOf_drawCount (t : State) : (t.withHostOf s).drawCount = t.drawCount := rfl
@[simp] theorem State.withHostOf_answers (t : State) : (t.withHostOf s).answers = t.answers := rfl
@[simp] theorem State.withHostOf_askCount (t : State) : (t.withHostOf s).askCount = t.askCount := rfl
@[simp] theorem State.withHostOf_host (t : State) : (t.withHostOf s).host = s.host := rfl
@[simp] theorem State.withHostOf_hostCount (t : State) : (t.withHostOf s).hostCount = s.hostCount := rfl
@[simp] theorem State.withHostOf_loadRefused (t : State) : (t.withHostOf s).loadRefused = s.loadRefused := rfl
@[simp] theorem State.withHostOf_phase (t : State) : (t.withHostOf s).phase = t.phase := rfl
@[simp] theorem State.getV_withHostOf (t : State) (r : Nibble) : (t.withHostOf s).getV r = t.getV r := rfl
@[simp] theorem State.peek_withHostOf (t : State) (a : Nat) : (t.withHostOf s).peek a = t.peek a := rfl
@[simp] theorem State.pixel_withHostOf (t : State) (x : Fin 64) (y : Fin 32) :
    (t.withHostOf s).pixel x y = t.pixel x y := rfl
@[simp] theorem State.initAt_withHostOf (t : State) : (t.withHostOf s).initAt = t.initAt := rfl

end Sys2Proof.Machine
end

