-- ==== Sys2Proof/Laws/Ops.lean ====
section
/-! SUPPORT. One law per shared operation, saying all it can do; a proof about an instruction cites these and
unfolds none of the operations. -/

namespace Sys2Proof.Machine

variable (s : State)

/-! ## Registers -/

/-- `V[r] <- b` writes `V[r]` alone. -/
@[simp] theorem State.getV_setV (r q : Nibble) (b : Byte) :
    (s.setV r b).getV q = if q = r then b else s.getV q := by
  simp only [State.getV, State.setV, Vector.getElem_set]
  by_cases h : q = r
  · subst h; simp
  · rw [if_neg h, if_neg fun e => h (BitVec.eq_of_toNat_eq e.symm)]

/-- The result and the flag: the later write wins where they meet (R150). -/
theorem State.getV_writeResultAndFlag (x q : Nibble) (r f : Byte) :
    (s.writeResultAndFlag x r f).getV q =
      match s.cfg.vfDestOrder with
      | .flagLast => if q = vf then f else if q = x then r else s.getV q
      | .resultLast => if q = x then r else if q = vf then f else s.getV q := by
  unfold State.writeResultAndFlag
  cases s.cfg.vfDestOrder <;> simp

/-- `V[0]` to `V[x]` are `x + 1` bytes. -/
@[simp] theorem State.length_regsThrough (x : Nibble) : (s.regsThrough x).length = x.toNat + 1 := by
  have := x.isLt
  simp [State.regsThrough]
  omega

/-- The `k`-th byte of `V[0..x]` is `V[k]`. -/
theorem State.getElem_regsThrough (x : Nibble) (k : Nat) (h : k < (s.regsThrough x).length) :
    (s.regsThrough x)[k] = s.getV (BitVec.ofNat 4 k) := by
  have hx := x.isLt
  rw [State.length_regsThrough] at h
  have hk : k % 16 = k := Nat.mod_eq_of_lt (by omega)
  simp [State.regsThrough, State.getV, hk]

/-- Loading registers writes the register file alone. -/
theorem State.setRegsFrom_eq (k : Nat) (bs : List Byte) :
    s.setRegsFrom k bs = { s with v := (s.setRegsFrom k bs).v } := by
  induction bs generalizing s k with
  | nil => rfl
  | cons b bs ih => exact ih (s.setV (BitVec.ofNat 4 k) b) (k + 1)

/-- Loading registers from `V[k]` on: `V[k + j]` gets the `j`-th byte, the others keep theirs (R205). -/
theorem State.getV_setRegsFrom (k : Nat) (bs : List Byte) (h : k + bs.length ≤ 16) (r : Nibble) :
    (s.setRegsFrom k bs).getV r =
      if h : k ≤ r.toNat ∧ r.toNat - k < bs.length then bs[r.toNat - k]'h.2 else s.getV r := by
  induction bs generalizing s k with
  | nil => simp [State.setRegsFrom]
  | cons b bs ih =>
    simp only [List.length_cons] at h
    rw [State.setRegsFrom, ih _ _ (by omega)]
    have hk : (BitVec.ofNat 4 k).toNat = k := by simp; omega
    by_cases hle : k + 1 ≤ r.toNat
    · have hne : r ≠ BitVec.ofNat 4 k := fun e => by rw [e, hk] at hle; omega
      have hidx : r.toNat - k = (r.toNat - (k + 1)) + 1 := by omega
      by_cases hin : r.toNat - (k + 1) < bs.length
      · rw [dif_pos ⟨hle, hin⟩, dif_pos ⟨by omega, by simp only [List.length_cons]; omega⟩]
        simp [hidx]
      · rw [dif_neg fun g => hin g.2,
          dif_neg fun g => hin (by have := g.2; simp only [List.length_cons] at this; omega)]
        simp [hne]
    · rw [dif_neg fun g => hle g.1]
      by_cases hr : r = BitVec.ofNat 4 k
      · have : r.toNat = k := by rw [hr, hk]
        rw [dif_pos ⟨by omega, by simp only [List.length_cons]; omega⟩]
        simp [this, ← hr]
      · rw [dif_neg fun g => hr (BitVec.eq_of_toNat_eq (by rw [hk]; omega))]
        simp [hr]

/-! ## Memory -/

/-- `MEM[a] <- b` writes byte `a` alone. -/
theorem State.peek_poke {s : State} (h : s.MemOk) (a : Nat) (b : Byte) (c : Nat) :
    (s.poke a b).peek c = if c = a then b else s.peek c := by
  simp only [State.peek, State.initAt_poke, State.poke_mem]
  exact Memory.read_write a b c h

/-- A write below 4096 keeps the canonical form. -/
theorem State.memOk_poke {s : State} (h : s.MemOk) {a : Nat} (ha : a < 4096) (b : Byte) :
    (s.poke a b).MemOk := by
  simp only [State.MemOk, State.initAt_poke, State.poke_mem]
  exact Memory.wfFrom_write b h (Nat.zero_le a) ha

@[simp] theorem State.length_peeks (a n : Nat) : (s.peeks a n).length = n := by
  induction n generalizing a with
  | zero => rfl
  | succ n ih => simp [State.peeks, ih]

/-- The `k`-th byte of a span is the byte at `a + k`. -/
theorem State.getElem_peeks (a n k : Nat) (h : k < (s.peeks a n).length) :
    (s.peeks a n)[k] = s.peek (a + k) := by
  induction n generalizing a k with
  | zero => simp at h
  | succ n ih =>
    cases k with
    | zero => rfl
    | succ k =>
      simp only [State.peeks, List.getElem_cons_succ]
      rw [ih]
      congr 1
      omega

/-- Spans read the same where the bytes are the same. -/
theorem State.peeks_congr {s t : State} {a n : Nat} (h : ∀ k, k < n → t.peek (a + k) = s.peek (a + k)) :
    t.peeks a n = s.peeks a n := by
  apply List.ext_getElem
  · simp
  · intro k h1 h2
    rw [State.getElem_peeks, State.getElem_peeks]
    exact h k (by simpa using h1)

/-- Storing bytes writes memory alone. -/
theorem State.pokes_eq (a : Nat) (bs : List Byte) :
    s.pokes a bs = { s with mem := (s.pokes a bs).mem } := by
  induction bs generalizing s a with
  | nil => rfl
  | cons b bs ih => exact ih (s.poke a b) (a + 1)

/-- Storing bytes inside memory keeps the canonical form. -/
theorem State.memOk_pokes {s : State} (h : s.MemOk) {a : Nat} {bs : List Byte}
    (ha : a + bs.length ≤ 4096) : (s.pokes a bs).MemOk := by
  induction bs generalizing s a with
  | nil => exact h
  | cons b bs ih =>
    simp only [List.length_cons] at ha
    exact ih (State.memOk_poke h (by omega) b) (by omega)

/-- Storing bytes from `a`: byte `a + j` is the `j`-th, every other byte as before. -/
theorem State.peek_pokes {s : State} (h : s.MemOk) {a : Nat} {bs : List Byte}
    (ha : a + bs.length ≤ 4096) (c : Nat) :
    (s.pokes a bs).peek c =
      if h : a ≤ c ∧ c - a < bs.length then bs[c - a]'h.2 else s.peek c := by
  induction bs generalizing s a with
  | nil => simp [State.pokes]
  | cons b bs ih =>
    simp only [List.length_cons] at ha
    rw [State.pokes, ih (State.memOk_poke h (by omega) b) (by omega)]
    by_cases hle : a + 1 ≤ c
    · have hidx : c - a = (c - (a + 1)) + 1 := by omega
      by_cases hin : c - (a + 1) < bs.length
      · rw [dif_pos ⟨hle, hin⟩, dif_pos ⟨by omega, by simp only [List.length_cons]; omega⟩]
        simp [hidx]
      · rw [dif_neg fun g => hin g.2,
          dif_neg fun g => hin (by have := g.2; simp only [List.length_cons] at this; omega),
          State.peek_poke h, if_neg (by omega)]
    · rw [dif_neg fun g => hle g.1, State.peek_poke h]
      by_cases hc : c = a
      · subst hc
        rw [if_pos rfl, dif_pos ⟨Nat.le_refl c, by simp⟩]
        simp
      · rw [if_neg hc, dif_neg fun g => hc (by omega)]

/-- A span inside memory is read, one that leaves it raises for its lowest bad address (R206). -/
theorem State.loadSpan_eq (a n : Nat) :
    s.loadSpan a n =
      if a + n - 1 > 0xFFF then .error (.memReadRange (max a 0x1000)) else .ok (s.peeks a n) := by
  unfold State.loadSpan outOfRange
  split <;> rename_i h <;> split at h <;> simp_all

/-- A span inside memory is written, one that leaves it raises for its lowest bad address (R206). -/
theorem State.storeSpan_eq (a : Nat) (bs : List Byte) :
    s.storeSpan a bs =
      if a + bs.length - 1 > 0xFFF then .error (.memWriteRange (max a 0x1000))
      else .ok (s.pokes a bs) := by
  unfold State.storeSpan outOfRange
  split <;> rename_i h <;> split at h <;> simp_all

/-! ## Construction -/

/-- The memory of a constructed core is in canonical form (R341). -/
theorem State.memOk_construct {rom : List Byte} (h : rom.length ≤ 3584) : (s.construct rom).MemOk :=
  Memory.wfFrom_mono (lo := 0x200) (wfFrom_romCells 0x200 rom (by omega)) (by decide)

/-- A constructed core holds the ROM from 0x200 (R341). -/
theorem State.peek_construct_rom {rom : List Byte} (h : rom.length ≤ 3584) {k : Nat}
    (hk : k < rom.length) : (s.construct rom).peek (0x200 + k) = rom[k] := by
  change Memory.read s.initAt (romCells s.initAt 0x200 rom) (0x200 + k) = _
  rw [read_romCells 0x200 rom (by omega)]
  simp [hk]

/-- A constructed core holds construction values outside the ROM (R341). -/
theorem State.peek_construct {rom : List Byte} (h : rom.length ≤ 3584) {a : Nat}
    (ha : a < 0x200 ∨ 0x200 + rom.length ≤ a) : (s.construct rom).peek a = s.initAt a := by
  change Memory.read s.initAt (romCells s.initAt 0x200 rom) a = _
  rw [read_romCells 0x200 rom (by omega), dif_neg (by omega)]

/-! ## Stack -/

/-- A push onto a stack with a free slot. -/
theorem State.push_of_lt {s : State} (h : s.sp.val < 16) (w : Word) :
    s.push w =
      .ok { s with stack := s.stack.set s.sp.val w h, sp := ⟨s.sp.val + 1, by omega⟩ } := by
  simp [State.push, h]

/-- A push onto a full stack. -/
theorem State.push_of_full {s : State} (h : s.sp.val = 16) (w : Word) :
    s.push w = .error (.stackOverflow s.pc0) := by
  simp [State.push, h]

/-- A pop from a stack that holds an address. -/
theorem State.pop_of_pos {s : State} (h : 0 < s.sp.val) :
    s.pop = .ok (s.stack[s.sp.val - 1]'(by omega), { s with sp := ⟨s.sp.val - 1, by omega⟩ }) := by
  simp only [State.pop, h, ↓reduceDIte]

/-- A pop from an empty stack. -/
theorem State.pop_of_empty {s : State} (h : s.sp.val = 0) :
    s.pop = .error (.stackUnderflow s.pc0) := by
  simp [State.pop, h]

/-! ## The end of a meaning -/

@[simp] theorem State.finish_ok (t : State) : s.finish (.ok t) = .next t := rfl

@[simp] theorem State.finish_error (c : FaultCause) : s.finish (.error c) = .next (s.raise c) := rfl

/-- A meaning that may raise answers its result or the fault alone (R304). -/
theorem State.finish_next {s t : State} {r : Except FaultCause State} (h : s.finish r = .next t) :
    r = .ok t ∨ ∃ c, r = .error c ∧ t = s.raise c := by
  cases r with
  | ok u => exact .inl (by rw [State.finish_ok] at h; cases h; rfl)
  | error c => exact .inr ⟨c, rfl, by rw [State.finish_error] at h; cases h; rfl⟩

/-! ## Framebuffer -/

@[simp] theorem State.pixel_clearDisplay (x : Fin 64) (y : Fin 32) :
    s.clearDisplay.pixel x y = false := by
  simp [State.pixel]

/-- `set_pixel` toggles its pixel alone (R322). -/
theorem State.pixel_togglePixel (x : Fin 64) (y : Fin 32) (x' : Fin 64) (y' : Fin 32) :
    (s.togglePixel x y).pixel x' y' =
      if x' = x ∧ y' = y then !s.pixel x y else s.pixel x' y' := by
  simp only [State.pixel, State.togglePixel_fb, Vector.getElem_set]
  by_cases hy : y' = y
  · subst hy
    by_cases hx : x' = x
    · subst hx
      simp
    · have this' : ¬ x'.val = x.val := fun e => hx (Fin.ext e)
      simp [hx, this']
  · have : ¬ y.val = y'.val := fun e => hy (Fin.ext e.symm)
    simp [hy, this]

/-- Drawing one pixel more: its toggle first, with `VF` set on a collision (R221). -/
theorem State.drawPixels_cons (p : Fin 64 × Fin 32) (ps : List (Fin 64 × Fin 32)) :
    s.drawPixels (p :: ps) =
      (if s.pixel p.1 p.2 = true then (s.togglePixel p.1 p.2).setV vf 1#8
        else s.togglePixel p.1 p.2).drawPixels ps := rfl

/-- Drawing writes the register file, the framebuffer and the trace alone. -/
theorem State.drawPixels_eq (ps : List (Fin 64 × Fin 32)) :
    s.drawPixels ps = { s with v := (s.drawPixels ps).v, fb := (s.drawPixels ps).fb, trace := (s.drawPixels ps).trace } := by
  induction ps generalizing s with
  | nil => rfl
  | cons p ps ih =>
    rw [State.drawPixels_cons]
    by_cases hs : s.pixel p.1 p.2 = true
    · rw [if_pos hs]
      exact ih ((s.togglePixel p.1 p.2).setV vf 1#8)
    · rw [if_neg hs]
      exact ih (s.togglePixel p.1 p.2)

/-- Of the registers drawing writes `VF` alone. -/
theorem State.getV_drawPixels_of_ne (ps : List (Fin 64 × Fin 32)) {r : Nibble} (hr : r ≠ vf) :
    (s.drawPixels ps).getV r = s.getV r := by
  induction ps generalizing s with
  | nil => rfl
  | cons p ps ih =>
    rw [State.drawPixels_cons, ih]
    by_cases hs : s.pixel p.1 p.2 = true <;> simp [hs, hr]

/-- Drawing emits one `SetPixel` per toggle, in order (R222). -/
theorem State.trace_drawPixels (ps : List (Fin 64 × Fin 32)) :
    (s.drawPixels ps).trace = s.trace ++ ps.map fun p => .setPixel p.1 p.2 := by
  induction ps generalizing s with
  | nil => simp [State.drawPixels]
  | cons p ps ih =>
    rw [State.drawPixels_cons, ih]
    by_cases hs : s.pixel p.1 p.2 = true <;> simp [hs]

/-- Drawing a list of pixels without repeats toggles exactly those. -/
theorem State.pixel_drawPixels {ps : List (Fin 64 × Fin 32)} (hps : ps.Nodup) (x : Fin 64) (y : Fin 32) :
    (s.drawPixels ps).pixel x y = (s.pixel x y ^^ decide ((x, y) ∈ ps)) := by
  induction ps generalizing s with
  | nil => simp [State.drawPixels]
  | cons p ps ih =>
    obtain ⟨hp, hps⟩ := List.nodup_cons.1 hps
    rw [State.drawPixels_cons, ih _ hps]
    have key : ∀ t : State, t.fb = (s.togglePixel p.1 p.2).fb →
        (t.pixel x y ^^ decide ((x, y) ∈ ps)) = (s.pixel x y ^^ decide ((x, y) ∈ p :: ps)) := by
      intro t ht
      rw [State.pixel_congr ht, State.pixel_togglePixel]
      by_cases he : (x, y) = p
      · subst he
        simp [hp]
      · have : ¬ (x = p.1 ∧ y = p.2) := fun g => he (Prod.ext g.1 g.2)
        simp [this, he]
    by_cases hs : s.pixel p.1 p.2 = true
    · rw [if_pos hs]
      exact key _ rfl
    · rw [if_neg hs]
      exact key _ rfl

/-- After drawing a list of pixels without repeats `VF` is 1 exactly when one of them was set before; it keeps
its value otherwise. -/
theorem State.getV_vf_drawPixels {ps : List (Fin 64 × Fin 32)} (hps : ps.Nodup) :
    (s.drawPixels ps).getV vf = if ∃ p ∈ ps, s.pixel p.1 p.2 = true then 1#8 else s.getV vf := by
  induction ps generalizing s with
  | nil => simp [State.drawPixels]
  | cons p ps ih =>
    obtain ⟨hp, hps⟩ := List.nodup_cons.1 hps
    rw [State.drawPixels_cons, ih _ hps]
    have same : ∀ t : State, t.fb = (s.togglePixel p.1 p.2).fb →
        ((∃ q ∈ ps, t.pixel q.1 q.2 = true) ↔ ∃ q ∈ ps, s.pixel q.1 q.2 = true) := by
      intro t ht
      refine exists_congr fun q => and_congr_right fun hq => ?_
      have : ¬ (q.1 = p.1 ∧ q.2 = p.2) := fun g => hp ((Prod.ext g.1 g.2 : q = p) ▸ hq)
      rw [State.pixel_congr ht, State.pixel_togglePixel, if_neg this]
    by_cases hs : s.pixel p.1 p.2 = true
    · simp [hs]
    · simp only [hs, Bool.false_eq_true, ↓reduceIte, List.mem_cons, exists_eq_or_imp, false_or]
      rw [State.getV_togglePixel]
      exact if_congr (same _ rfl) rfl rfl

end Sys2Proof.Machine
end

