-- ==== Sys2Proof/Laws/Exec.lean ====
section
/-! SUPPORT. What each meaning with more than one outcome can do: its effect where it completes, or its fault
alone. A meaning not listed here is a single `.next` of named operations, and `cases` on its equation gives its
effect. -/

namespace Sys2Proof.Machine

variable {s t : State}

/-- 0nnn (R180). -/
theorem execSys_cases {nnn : Addr} (h : execSys nnn s = .next t) :
    (s.cfg.sysPolicy = .nop ∧ t = s) ∨
    (s.cfg.sysPolicy = .fault ∧ t = s.raise (.sysUnsupported nnn)) := by
  unfold execSys at h
  cases hp : s.cfg.sysPolicy <;> rw [hp] at h <;> cases h
  · exact .inr ⟨rfl, rfl⟩
  · exact .inl ⟨rfl, rfl⟩

/-- 2nnn (R182). -/
theorem execCall_cases {nnn : Addr} (h : execCall nnn s = .next t) :
    (∃ hs : s.sp.val < 16,
      t = { s with stack := s.stack.set s.sp.val s.pc hs, sp := ⟨s.sp.val + 1, by omega⟩, pc := zextAddr nnn }) ∨
    (s.sp.val = 16 ∧ t = s.raise (.stackOverflow s.pc0)) := by
  unfold execCall at h
  by_cases hs : s.sp.val < 16
  · rw [State.push_of_lt hs] at h
    cases h
    exact .inl ⟨hs, rfl⟩
  · have hs : s.sp.val = 16 := by omega
    rw [State.push_of_full hs] at h
    cases h
    exact .inr ⟨hs, rfl⟩

/-- 00EE (R181). -/
theorem execRet_cases (h : execRet s = .next t) :
    (∃ hs : 0 < s.sp.val,
      t = { s with sp := ⟨s.sp.val - 1, by omega⟩, pc := s.stack[s.sp.val - 1]'(by omega) }) ∨
    (s.sp.val = 0 ∧ t = s.raise (.stackUnderflow s.pc0)) := by
  unfold execRet at h
  by_cases hs : 0 < s.sp.val
  · rw [State.pop_of_pos hs] at h
    cases h
    exact .inl ⟨hs, rfl⟩
  · have hs : s.sp.val = 0 := by omega
    rw [State.pop_of_empty hs] at h
    cases h
    exact .inr ⟨hs, rfl⟩

/-- Fx33 (R203). -/
theorem execLdBVx_cases {x : Nibble} (h : execLdBVx x s = .next t) :
    (s.i.toNat + 2 ≤ 0xFFF ∧ t = s.pokes s.i.toNat (bcdDigits (s.getV x))) ∨
    (s.i.toNat + 2 > 0xFFF ∧ t = s.raise (.memWriteRange (max s.i.toNat 0x1000))) := by
  unfold execLdBVx at h
  rw [State.storeSpan_eq] at h
  split at h <;> rename_i hr <;> cases h <;> simp only [bcdDigits, List.length_cons, List.length_nil] at hr
  · exact .inr ⟨by omega, rfl⟩
  · exact .inl ⟨by omega, rfl⟩

/-- Fx55 (R204). -/
theorem execLdMemVx_cases {x : Nibble} (h : execLdMemVx x s = .next t) :
    (s.i.toNat + x.toNat ≤ 0xFFF ∧ t = s.pokes s.i.toNat (s.regsThrough x)) ∨
    (s.i.toNat + x.toNat > 0xFFF ∧ t = s.raise (.memWriteRange (max s.i.toNat 0x1000))) := by
  unfold execLdMemVx at h
  rw [State.storeSpan_eq] at h
  split at h <;> rename_i hr <;> cases h <;> rw [State.length_regsThrough] at hr
  · exact .inr ⟨by omega, rfl⟩
  · exact .inl ⟨by omega, rfl⟩

/-- Fx65 (R205). -/
theorem execLdVxMem_cases {x : Nibble} (h : execLdVxMem x s = .next t) :
    (s.i.toNat + x.toNat ≤ 0xFFF ∧ t = s.setRegsFrom 0 (s.peeks s.i.toNat (x.toNat + 1))) ∨
    (s.i.toNat + x.toNat > 0xFFF ∧ t = s.raise (.memReadRange (max s.i.toNat 0x1000))) := by
  unfold execLdVxMem at h
  rw [State.loadSpan_eq] at h
  split at h <;> rename_i hr <;> cases h
  · exact .inr ⟨by omega, rfl⟩
  · exact .inl ⟨by omega, rfl⟩

/-- Dxyn (R221, R223). -/
theorem execDrw_cases {x y n : Nibble} (h : execDrw x y n s = .next t) :
    (s.i.toNat + rowCount n - 1 ≤ 0xFFF ∧
      t = (s.setV vf 0#8).drawPixels (spritePixels (s.getV x).toNat (s.getV y).toNat
        (s.peeks s.i.toNat (rowCount n)))) ∨
    (s.i.toNat + rowCount n - 1 > 0xFFF ∧ t = s.raise (.memReadRange (max s.i.toNat 0x1000))) := by
  unfold execDrw at h
  rw [State.loadSpan_eq] at h
  split at h <;> rename_i hr <;> cases h
  · exact .inr ⟨hr, rfl⟩
  · exact .inl ⟨by omega, rfl⟩

/-- Ex9E (R241). -/
theorem execSkp_cases {x : Nibble} (h : execSkp x s = .next t) :
    ((s.getV x).toNat ≤ 15 ∧ t = s.asked.skipIf (s.nextPressed ((s.getV x).setWidth 4))) ∨
    ((s.getV x).toNat > 15 ∧ t = s.raise (.keyRange (s.getV x))) := by
  unfold execSkp keyIndex at h
  split at h <;> rename_i hk <;> cases h
  · exact .inr ⟨hk, rfl⟩
  · exact .inl ⟨by omega, rfl⟩

/-- ExA1 (R242). -/
theorem execSknp_cases {x : Nibble} (h : execSknp x s = .next t) :
    ((s.getV x).toNat ≤ 15 ∧ t = s.asked.skipIf (!s.nextPressed ((s.getV x).setWidth 4))) ∨
    ((s.getV x).toNat > 15 ∧ t = s.raise (.keyRange (s.getV x))) := by
  unfold execSknp keyIndex at h
  split at h <;> rename_i hk <;> cases h
  · exact .inr ⟨hk, rfl⟩
  · exact .inl ⟨by omega, rfl⟩

/-- Fx18 (R252, R253). -/
theorem execLdStVx_cases {x : Nibble} (h : execLdStVx x s = .next t) :
    (s.getV x = 0#8 ∧ t = s.setSt (s.getV x)) ∨
    (s.getV x ≠ 0#8 ∧ t = (s.setSt (s.getV x)).emit (.tone (s.getV x))) := by
  unfold execLdStVx at h
  by_cases hv : s.getV x = 0#8
  · simp only [hv, ↓reduceIte] at h
    cases h
    exact .inl ⟨hv, by rw [hv]⟩
  · simp only [hv, ↓reduceIte] at h
    cases h
    exact .inr ⟨hv, rfl⟩

end Sys2Proof.Machine
end

