-- ==== Sys2Proof/Laws/PerInstr.lean ====
section
/-! SUPPORT. Per-instruction families. `FixedBits`: the encoder sets the bits that the opcode map fixes for the
row to the row's value (R101). -/

namespace Sys2Proof.Laws.FixedBits

/-- The encoding has the row's match under the row's mask. -/
def Statement (i : Instr) : Prop := encode i &&& i.mask = i.pattern

theorem sys (nnn : Addr) : Statement (.sys nnn) := (and_F000_nnn _ _).trans rfl

theorem cls : Statement (.cls) := rfl

theorem ret : Statement (.ret) := rfl

theorem jp (nnn : Addr) : Statement (.jp nnn) := (and_F000_nnn _ _).trans rfl

theorem call (nnn : Addr) : Statement (.call nnn) := (and_F000_nnn _ _).trans rfl

theorem seByte (x : Nibble) (kk : Byte) : Statement (.seByte x kk) := (and_F000_kk _ _ _).trans rfl

theorem sneByte (x : Nibble) (kk : Byte) : Statement (.sneByte x kk) := (and_F000_kk _ _ _).trans rfl

theorem seReg (x : Nibble) (y : Nibble) : Statement (.seReg x y) := (and_F000_n _ _ _ _).trans rfl

theorem ldByte (x : Nibble) (kk : Byte) : Statement (.ldByte x kk) := (and_F000_kk _ _ _).trans rfl

theorem addByte (x : Nibble) (kk : Byte) : Statement (.addByte x kk) := (and_F000_kk _ _ _).trans rfl

theorem ldReg (x : Nibble) (y : Nibble) : Statement (.ldReg x y) := (and_F00F_n _ _ _ _).trans rfl

theorem orReg (x : Nibble) (y : Nibble) : Statement (.orReg x y) := (and_F00F_n _ _ _ _).trans rfl

theorem andReg (x : Nibble) (y : Nibble) : Statement (.andReg x y) := (and_F00F_n _ _ _ _).trans rfl

theorem xorReg (x : Nibble) (y : Nibble) : Statement (.xorReg x y) := (and_F00F_n _ _ _ _).trans rfl

theorem addReg (x : Nibble) (y : Nibble) : Statement (.addReg x y) := (and_F00F_n _ _ _ _).trans rfl

theorem subReg (x : Nibble) (y : Nibble) : Statement (.subReg x y) := (and_F00F_n _ _ _ _).trans rfl

theorem shrReg (x : Nibble) (y : Nibble) : Statement (.shrReg x y) := (and_F00F_n _ _ _ _).trans rfl

theorem subnReg (x : Nibble) (y : Nibble) : Statement (.subnReg x y) := (and_F00F_n _ _ _ _).trans rfl

theorem shlReg (x : Nibble) (y : Nibble) : Statement (.shlReg x y) := (and_F00F_n _ _ _ _).trans rfl

theorem sneReg (x : Nibble) (y : Nibble) : Statement (.sneReg x y) := (and_F000_n _ _ _ _).trans rfl

theorem ldI (nnn : Addr) : Statement (.ldI nnn) := (and_F000_nnn _ _).trans rfl

theorem jpV0 (nnn : Addr) : Statement (.jpV0 nnn) := (and_F000_nnn _ _).trans rfl

theorem rnd (x : Nibble) (kk : Byte) : Statement (.rnd x kk) := (and_F000_kk _ _ _).trans rfl

theorem drw (x : Nibble) (y : Nibble) (n : Nibble) : Statement (.drw x y n) := (and_F000_n _ _ _ _).trans rfl

theorem skp (x : Nibble) : Statement (.skp x) := (and_F0FF_kk _ _ _).trans rfl

theorem sknp (x : Nibble) : Statement (.sknp x) := (and_F0FF_kk _ _ _).trans rfl

theorem ldVxDt (x : Nibble) : Statement (.ldVxDt x) := (and_F0FF_kk _ _ _).trans rfl

theorem ldVxK (x : Nibble) : Statement (.ldVxK x) := (and_F0FF_kk _ _ _).trans rfl

theorem ldDtVx (x : Nibble) : Statement (.ldDtVx x) := (and_F0FF_kk _ _ _).trans rfl

theorem ldStVx (x : Nibble) : Statement (.ldStVx x) := (and_F0FF_kk _ _ _).trans rfl

theorem addIVx (x : Nibble) : Statement (.addIVx x) := (and_F0FF_kk _ _ _).trans rfl

theorem ldFVx (x : Nibble) : Statement (.ldFVx x) := (and_F0FF_kk _ _ _).trans rfl

theorem ldBVx (x : Nibble) : Statement (.ldBVx x) := (and_F0FF_kk _ _ _).trans rfl

theorem ldMemVx (x : Nibble) : Statement (.ldMemVx x) := (and_F0FF_kk _ _ _).trans rfl

theorem ldVxMem (x : Nibble) : Statement (.ldVxMem x) := (and_F0FF_kk _ _ _).trans rfl

end Sys2Proof.Laws.FixedBits
end

