-- ==== Sys2Proof/Laws/Sprite.lean ====
section
/-! SUPPORT. The pixels of a sprite: which they are, and that none is listed twice (R222). -/

namespace Sys2Proof.Machine

/-- A column is one of the eight. -/
theorem mem_spriteColumns {c : Nat} : c ∈ spriteColumns ↔ c < 8 := by
  simp [spriteColumns]
  omega

/-- The pixels of a row are those of its set bits, most significant first (R221). -/
theorem mem_rowPixels {cx y : Nat} {b : Byte} {p : Fin 64 × Fin 32} :
    p ∈ rowPixels cx y b ↔ ∃ c < 8, b.getLsbD (7 - c) = true ∧ p = wrapPixel cx c y := by
  simp only [rowPixels, List.mem_map, List.mem_filter, mem_spriteColumns]
  constructor
  · rintro ⟨c, ⟨hc, hb⟩, rfl⟩
    exact ⟨c, hc, hb, rfl⟩
  · rintro ⟨c, hc, hb, rfl⟩
    exact ⟨c, ⟨hc, hb⟩, rfl⟩

/-- The pixels of a sprite: set bit `7 - c` of row `r` gives pixel (`cx + c`, `cy + r`), wrapped (R221, R222). -/
theorem mem_spritePixels {cx cy : Nat} {rows : List Byte} {p : Fin 64 × Fin 32} :
    p ∈ spritePixels cx cy rows ↔
      ∃ (r : Nat) (h : r < rows.length) (c : Nat), c < 8 ∧ (rows[r]).getLsbD (7 - c) = true ∧
        p = wrapPixel cx c (cy + r) := by
  induction rows generalizing cy with
  | nil => simp [spritePixels]
  | cons b bs ih =>
    rw [spritePixels, List.mem_append, mem_rowPixels, ih]
    constructor
    · rintro (⟨c, hc, hb, hp⟩ | ⟨r, hr, c, hc, hb, hp⟩)
      · exact ⟨0, by simp, c, hc, hb, hp⟩
      · exact ⟨r + 1, by simpa using hr, c, hc, by simpa using hb, by rw [hp, Nat.add_assoc, Nat.add_comm 1]⟩
    · rintro ⟨r, hr, c, hc, hb, hp⟩
      cases r with
      | zero => exact .inl ⟨c, hc, hb, hp⟩
      | succ r =>
        exact .inr ⟨r, by simpa using hr, c, hc, by simpa using hb, by
          rw [hp]
          congr 1
          omega⟩

/-- Different columns of one row are different pixels: a sprite is narrower than the display. -/
theorem wrapPixel_injective_column {cx c c' y : Nat} (hc : c < 8) (hc' : c' < 8)
    (h : wrapPixel cx c y = wrapPixel cx c' y) : c = c' := by
  have := congrArg (fun p => p.1.val) h
  simp only [wrapPixel] at this
  omega

/-- The pixels of one row are listed once each. -/
theorem rowPixels_nodup (cx y : Nat) (b : Byte) : (rowPixels cx y b).Nodup := by
  unfold rowPixels
  refine (List.Nodup.filter _ (by decide)).map_on ?_
  intro c hc c' hc' h
  exact wrapPixel_injective_column (mem_spriteColumns.1 (List.mem_filter.1 hc).1)
    (mem_spriteColumns.1 (List.mem_filter.1 hc').1) h

/-- The pixels of a sprite of at most 32 rows are listed once each (R222: "no pixel is toggled twice"). -/
theorem spritePixels_nodup (cx cy : Nat) (rows : List Byte) (h : rows.length ≤ 32) :
    (spritePixels cx cy rows).Nodup := by
  induction rows generalizing cy with
  | nil => exact List.nodup_nil
  | cons b bs ih =>
    simp only [List.length_cons] at h
    rw [spritePixels, List.nodup_append]
    refine ⟨rowPixels_nodup cx cy b, ih _ (by omega), ?_⟩
    intro p hp q hq hpq
    subst hpq
    obtain ⟨c, _, _, rfl⟩ := mem_rowPixels.1 hp
    obtain ⟨r, hr, c', _, _, h'⟩ := mem_spritePixels.1 hq
    have := congrArg (fun p => p.2.val) h'
    simp only [wrapPixel] at this
    omega

/-- A sprite is at least one row high and at most 16 (R223). -/
theorem rowCount_bounds (n : Nibble) : 1 ≤ rowCount n ∧ rowCount n ≤ 16 := by
  have := n.isLt
  unfold rowCount
  split
  · decide
  · next h =>
    have : n.toNat ≠ 0 := fun e => h (BitVec.eq_of_toNat_eq e)
    omega

end Sys2Proof.Machine
end

