-- ==== Sys2Proof/Laws/Step.lean ====
section
/-! SUPPORT. What a step can do, said once: the inversion of each layer of `step`, and the one induction over
it that invariants are proved with. -/

namespace Sys2Proof.Machine

variable {s t : State}

/-! ## Outcomes -/

@[simp] theorem mapNext_next (f : State → State) (s : State) : mapNext f (.next s) = .next (f s) := rfl

/-- A mapped outcome is a next state when the outcome was. -/
theorem mapNext_eq_next {f : State → State} {o : Host.Outcome State Fault Refusal}
    (h : mapNext f o = .next t) : ∃ u, o = .next u ∧ t = f u := by
  cases o with
  | next u => exact ⟨u, rfl, by rw [mapNext_next] at h; cases h; rfl⟩
  | fault r => cases r
  | refused r => simp [mapNext] at h

/-! ## Control (R120) -/

theorem State.control_run : s.control = .run ↔ s.Running := by
  unfold State.control State.Running
  cases s.fault <;> cases s.paused <;> simp

theorem State.control_waitKey : s.control = .waitKey ↔ s.fault = none ∧ s.paused = true := by
  unfold State.control
  cases s.fault <;> cases s.paused <;> simp

theorem State.control_halted : s.control = .halted ↔ s.fault ≠ none := by
  unfold State.control
  cases s.fault <;> cases s.paused <;> simp

/-! ## The instruction step (R121) -/

/-- Fetch and decode succeed: the step is the meaning on the advanced state. -/
theorem instrStep_of_decode {w : Word} {i : Instr} (hf : s.fetchWord = .ok w)
    (hd : decode w = .ok i) : instrStep s = exec i s.advance := by
  simp only [instrStep, hf, hd]

/-- The fetch fails: its fault alone. -/
theorem instrStep_of_fetch_error {c : FaultCause} (hf : s.fetchWord = .error c) :
    instrStep s = .next (s.raiseAt s.pc c) := by
  simp only [instrStep, hf]

/-- The decoding fails: its fault alone. -/
theorem instrStep_of_decode_error {w : Word} {d : Discriminant} (hf : s.fetchWord = .ok w)
    (hd : decode w = .error d) : instrStep s = .next (s.raiseAt s.pc (.decode d w)) := by
  simp only [instrStep, hf, hd]

/-- A fetch succeeds exactly up to 0xFFE (R65). -/
theorem State.fetchWord_of_le (h : s.pc.toNat ≤ 0xFFE) :
    s.fetchWord = .ok (wordOfBytes (s.peek s.pc.toNat) (s.peek (s.pc.toNat + 1))) := by
  rw [State.fetchWord, if_neg (by omega)]

theorem State.fetchWord_of_gt (h : s.pc.toNat > 0xFFE) : s.fetchWord = .error (.fetchRange s.pc) := by
  rw [State.fetchWord, if_pos h]

/-- A successful fetch was in range. -/
theorem State.pc_le_of_fetchWord {w : Word} (h : s.fetchWord = .ok w) : s.pc.toNat ≤ 0xFFE := by
  by_cases hp : s.pc.toNat > 0xFFE
  · rw [State.fetchWord_of_gt hp] at h
    cases h
  · omega

/-- What an instruction step can do. -/
theorem instrStep_cases (h : instrStep s = .next t) :
    (∃ c, s.fetchWord = .error c ∧ t = s.raiseAt s.pc c) ∨
    (∃ w d, s.fetchWord = .ok w ∧ decode w = .error d ∧ t = s.raiseAt s.pc (.decode d w)) ∨
    ∃ w i, s.fetchWord = .ok w ∧ decode w = .ok i ∧ exec i s.advance = .next t := by
  cases hf : s.fetchWord with
  | error c =>
    rw [instrStep_of_fetch_error hf] at h
    cases h
    exact .inl ⟨c, rfl, rfl⟩
  | ok w =>
    cases hd : decode w with
    | error d =>
      rw [instrStep_of_decode_error hf hd] at h
      cases h
      exact .inr (.inl ⟨w, d, rfl, hd, rfl⟩)
    | ok i => exact .inr (.inr ⟨w, i, rfl, hd, by rw [← instrStep_of_decode hf hd, h]⟩)

/-! ## Slots and frames (R128, R129) -/

/-- A slot of a running core is an instruction step. -/
theorem slot_of_running (h : s.Running) : slot s = instrStep s := by
  simp only [slot, State.control_run.2 h]

/-- A slot of a core that is not running changes nothing. -/
theorem slot_of_not_running (h : ¬ s.Running) : slot s = .next s := by
  unfold slot
  split
  · next hc => exact absurd (State.control_run.1 hc) h
  · rfl
  · rfl

/-- What a slot can do. -/
theorem slot_cases (h : slot s = .next t) :
    (¬ s.Running ∧ t = s) ∨ (s.Running ∧ instrStep s = .next t) := by
  by_cases hr : s.Running
  · exact .inr ⟨hr, by rw [← slot_of_running hr, h]⟩
  · rw [slot_of_not_running hr] at h
    cases h
    exact .inl ⟨hr, rfl⟩

theorem frameMove_of_zero (h : s.phase = .inFrame 0) :
    frameMove s = .next { s.frameEnd with phase := .betweenFrames } := by
  simp only [frameMove, h]

theorem frameMove_of_succ {n : Nat} (h : s.phase = .inFrame (n + 1)) :
    frameMove s = mapNext (State.afterSlot n) (slot s) := by
  simp only [frameMove, h]

/-- What the frame driver's move can do. -/
theorem frameMove_cases (h : frameMove s = .next t) :
    (s.phase = .betweenFrames ∧ t = s) ∨
    (s.phase = .inFrame 0 ∧ t = { s.frameEnd with phase := .betweenFrames }) ∨
    ∃ n u, s.phase = .inFrame (n + 1) ∧ slot s = .next u ∧ t = u.afterSlot n := by
  cases hp : s.phase with
  | betweenFrames =>
    rw [frameMove, hp] at h
    cases h
    exact .inl ⟨rfl, rfl⟩
  | inFrame n =>
    cases n with
    | zero =>
      rw [frameMove_of_zero hp] at h
      cases h
      exact .inr (.inl ⟨rfl, rfl⟩)
    | succ n =>
      rw [frameMove_of_succ hp] at h
      obtain ⟨u, hu, rfl⟩ := mapNext_eq_next h
      exact .inr (.inr ⟨n, u, rfl, hu, rfl⟩)

/-! ## The step -/

theorem step_of_inFrame {n : Nat} (h : s.phase = .inFrame n) : step s = frameMove s := by
  simp only [step, move, h]

theorem step_of_betweenFrames (h : s.phase = .betweenFrames) : step s = hostMove s := by
  simp only [step, move, h]

/-- What a step can do. -/
theorem step_cases (h : step s = .next t) :
    (∃ n, s.phase = .inFrame n ∧ frameMove s = .next t) ∨
    s.phase = .betweenFrames ∧
      ((s.nextHost = .cycle ∧ s.fault ≠ none ∧ t = s.hostTaken) ∨
       (s.nextHost = .cycle ∧ s.fault = none ∧ frameMove s.hostTaken.openFrame = .next t) ∨
       (∃ k, s.nextHost = .keyDown k ∧ t = s.hostTaken.keyDown k) ∨
       (∃ rom, s.nextHost = .load rom ∧ t = s.hostTaken.hostLoad rom) ∨
       (s.nextHost = .reset ∧ t = s.hostTaken.hostReset)) := by
  cases hp : s.phase with
  | inFrame n => exact .inl ⟨n, rfl, by rw [← step_of_inFrame hp, h]⟩
  | betweenFrames =>
    refine .inr ⟨rfl, ?_⟩
    rw [step_of_betweenFrames hp, hostMove] at h
    cases hn : s.nextHost with
    | cycle =>
      simp only [hn] at h
      by_cases hf : s.fault = none
      · simp only [hf, Option.isSome_none, Bool.false_eq_true, ↓reduceIte] at h
        exact .inr (.inl ⟨rfl, hf, h⟩)
      · have : s.fault.isSome = true := Option.isSome_iff_ne_none.2 hf
        simp only [this, ↓reduceIte] at h
        cases h
        exact .inl ⟨rfl, hf, rfl⟩
    | keyDown k =>
      simp only [hn] at h
      cases h
      exact .inr (.inr (.inl ⟨k, rfl, rfl⟩))
    | load rom =>
      simp only [hn] at h
      cases h
      exact .inr (.inr (.inr (.inl ⟨rom, rfl, rfl⟩)))
    | reset =>
      simp only [hn] at h
      cases h
      exact .inr (.inr (.inr (.inr ⟨rfl, rfl⟩)))

/-- The induction over a step: what the moves of the host, the frame driver, a fetch or decode fault and every
meaning keep, a step keeps. -/
theorem step_keeps {P : State → Prop}
    (host : ∀ s, P s → P s.hostTaken) (phase : ∀ s p, P s → P { s with phase := p })
    (key : ∀ s k, P s → P (s.keyDown k)) (refuse : ∀ s, P s → P s.refuseLoad)
    (build : ∀ s rom, rom.length ≤ 3584 → P s → P (s.construct rom))
    (frameEnd : ∀ s, P s → P s.frameEnd)
    (fault : ∀ s c, P s → P (s.raiseAt s.pc c))
    (meaning : ∀ s i t, P s → s.pc.toNat ≤ 0xFFE → exec i s.advance = .next t → P t)
    (hs : P s) (h : step s = .next t) : P t := by
  have frame : ∀ s t, P s → frameMove s = .next t → P t := by
    intro s t hs h
    obtain ⟨_, rfl⟩ | ⟨_, rfl⟩ | ⟨n, u, _, hu, rfl⟩ := frameMove_cases h
    · exact hs
    · exact phase _ _ (frameEnd s hs)
    · refine phase u _ ?_
      obtain ⟨_, rfl⟩ | ⟨_, hi⟩ := slot_cases hu
      · exact hs
      · obtain ⟨c, _, rfl⟩ | ⟨w, d, _, _, rfl⟩ | ⟨w, i, hw, _, he⟩ := instrStep_cases hi
        · exact fault s c hs
        · exact fault s _ hs
        · exact meaning s i u hs (State.pc_le_of_fetchWord hw) he
  obtain ⟨n, _, hm⟩ | ⟨_, ⟨_, _, rfl⟩ | ⟨_, _, hm⟩ | ⟨k, _, rfl⟩ | ⟨rom, _, rfl⟩ | ⟨_, rfl⟩⟩ :=
    step_cases h
  · exact frame s t hs hm
  · exact host s hs
  · exact frame _ t (phase s.hostTaken _ (host s hs)) hm
  · exact key _ k (host s hs)
  · unfold State.hostLoad
    split
    · exact build _ rom ‹_› (host s hs)
    · exact refuse _ (host s hs)
  · exact build _ [] (by simp) (host s hs)

end Sys2Proof.Machine
end

