-- ==== Sys2Proof/Tests/Slice0.lean ====
section
/-! SUPPORT. The model's own tests. Expected values are the vectors and programs of spec/95_test_vectors.md (T400
to T435) and the examples of the rules, named in each comment; the last part shows, for every obligation with
hypotheses, a state that meets them. -/

namespace Sys2Proof.Tests

open Sys2Proof Sys2Proof.Machine

set_option maxRecDepth 10000

/-! ## Helpers -/

/-- The state after one step that runs word `w` at `pc0` = 0x300 (95_test_vectors.md, Part 2). -/
def after (w : Nat) (s : State) : State :=
  match step ({ s with pc := 0x300#16 }.withFetchWord 16 w) with
  | .next t => t
  | _ => s

/-- The state after a list of word steps, each at 0x300. -/
def afterAll (ws : List Nat) (s : State) : State := ws.foldl (fun t w => after w t) s

/-- A reset state with registers set. -/
def regs (rs : List (Nibble × Byte)) : State := rs.foldl (fun t r => t.setV r.1 r.2) State.reset

/-- A state with a parameter choice. -/
def withCfg (c : Config) (s : State) : State := { s with cfg := c }

/-- The parameters with `RESULT_LAST` and `BOOL`. -/
def otherFlags : Config := { Config.default with vfDestOrder := .resultLast, shlFlagForm := .bool }

/-- The parameters with `SYS_POLICY` = `NOP`. -/
def sysNop : Config := { Config.default with sysPolicy := .nop }

/-- The pixels that are set, row by row. -/
def lit (s : State) : List (Nat × Nat) :=
  (List.finRange 32).flatMap fun y =>
    ((List.finRange 64).filter fun x => s.pixel x y).map fun x => (x.val, y.val)

/-! ## WellFormed: an ill-formed term for its check -/

/-- 0x00E0 and every 0x0nE0 is CLS, not SYS (R96, D19). -/
theorem test_wf_refuses_sys_e0 :
    (Instr.sys 0x0E0#12).wf = false ∧ (Instr.sys 0x1E0#12).wf = false := by decide

/-- 0x00EE and every 0x0nEE is RET, not SYS (R96, D19). -/
theorem test_wf_refuses_sys_ee :
    (Instr.sys 0x0EE#12).wf = false ∧ (Instr.sys 0xFEE#12).wf = false := by decide

/-- SYS with another low byte is well formed (R96). -/
theorem test_wf_accepts_sys : (Instr.sys 0x123#12).wf = true := by decide

/-! ## Decode: a word of every constructor, written out from its row in 30_encoding.md -/

/-- Classes 0 to 2. -/
theorem test_decode_control :
    decode 0b0000000100100011#16 = .ok (.sys 0x123#12) ∧
    decode 0b0000000011100000#16 = .ok .cls ∧
    decode 0b0000000011101110#16 = .ok .ret ∧
    decode 0b0001101010111100#16 = .ok (.jp 0xABC#12) ∧
    decode 0b0010001000001000#16 = .ok (.call 0x208#12) ∧
    decode 0b1011001100000000#16 = .ok (.jpV0 0x300#12) := by
  refine ⟨by rfl, by rfl, by rfl, by rfl, by rfl, by rfl⟩

/-- The skips: x is bits 11-8, y bits 7-4, kk bits 7-0. -/
theorem test_decode_skips :
    decode 0b0011000101000010#16 = .ok (.seByte 0x1#4 0x42#8) ∧
    decode 0b0100000101000010#16 = .ok (.sneByte 0x1#4 0x42#8) ∧
    decode 0b0101000100100000#16 = .ok (.seReg 0x1#4 0x2#4) ∧
    decode 0b1001000100100000#16 = .ok (.sneReg 0x1#4 0x2#4) ∧
    decode 0b1110000110011110#16 = .ok (.skp 0x1#4) ∧
    decode 0b1110000110100001#16 = .ok (.sknp 0x1#4) := by
  refine ⟨by rfl, by rfl, by rfl, by rfl, by rfl, by rfl⟩

/-- Loads, 7xkk, RND. -/
theorem test_decode_loads :
    decode 0b0110101011111111#16 = .ok (.ldByte 0xA#4 0xFF#8) ∧
    decode 0b0111001100000001#16 = .ok (.addByte 0x3#4 0x01#8) ∧
    decode 0b1000000100100000#16 = .ok (.ldReg 0x1#4 0x2#4) ∧
    decode 0b1100001100001111#16 = .ok (.rnd 0x3#4 0x0F#8) := by
  refine ⟨by rfl, by rfl, by rfl, by rfl⟩

/-- Class 8: the low nibble selects. -/
theorem test_decode_class8 :
    decode 0b1000000000010001#16 = .ok (.orReg 0x0#4 0x1#4) ∧
    decode 0b1000000000010010#16 = .ok (.andReg 0x0#4 0x1#4) ∧
    decode 0b1000000000010011#16 = .ok (.xorReg 0x0#4 0x1#4) ∧
    decode 0b1000000000010100#16 = .ok (.addReg 0x0#4 0x1#4) ∧
    decode 0b1000000000010101#16 = .ok (.subReg 0x0#4 0x1#4) ∧
    decode 0b1000000000010110#16 = .ok (.shrReg 0x0#4 0x1#4) ∧
    decode 0b1000000000010111#16 = .ok (.subnReg 0x0#4 0x1#4) ∧
    decode 0b1000000000011110#16 = .ok (.shlReg 0x0#4 0x1#4) := by
  refine ⟨by rfl, by rfl, by rfl, by rfl, by rfl, by rfl, by rfl, by rfl⟩

/-- Index, memory, display. -/
theorem test_decode_index :
    decode 0b1010001011110000#16 = .ok (.ldI 0x2F0#12) ∧
    decode 0b1111001000011110#16 = .ok (.addIVx 0x2#4) ∧
    decode 0b1111000000101001#16 = .ok (.ldFVx 0x0#4) ∧
    decode 0b1111010100110011#16 = .ok (.ldBVx 0x5#4) ∧
    decode 0b1111001001010101#16 = .ok (.ldMemVx 0x2#4) ∧
    decode 0b1111000101100101#16 = .ok (.ldVxMem 0x1#4) ∧
    decode 0b1101000000010101#16 = .ok (.drw 0x0#4 0x1#4 0x5#4) := by
  refine ⟨by rfl, by rfl, by rfl, by rfl, by rfl, by rfl, by rfl⟩

/-- Key wait and timers. -/
theorem test_decode_timers :
    decode 0b1111001100001010#16 = .ok (.ldVxK 0x3#4) ∧
    decode 0b1111010100000111#16 = .ok (.ldVxDt 0x5#4) ∧
    decode 0b1111010100010101#16 = .ok (.ldDtVx 0x5#4) ∧
    decode 0b1111001000011000#16 = .ok (.ldStVx 0x2#4) := by
  refine ⟨by rfl, by rfl, by rfl, by rfl⟩

/-- The bits R103 ignores: 0x01E0 is CLS, 0x5127 is 0x5120 (T416). -/
theorem test_decode_ignored_bits :
    decode 0x01E0#16 = .ok .cls ∧ decode 0x0FEE#16 = .ok .ret ∧
    decode 0x5127#16 = .ok (.seReg 0x1#4 0x2#4) ∧ decode 0x912F#16 = .ok (.sneReg 0x1#4 0x2#4) := by
  refine ⟨by rfl, by rfl, by rfl, by rfl⟩

/-- Illegal words with their discriminants (T420). -/
theorem test_decode_rejects :
    decode 0x8008#16 = .error ⟨0x8#4, 0x08#8, 0x8#4⟩ ∧
    decode 0x800F#16 = .error ⟨0x8#4, 0x0F#8, 0xF#4⟩ ∧
    decode 0xE09F#16 = .error ⟨0xE#4, 0x9F#8, 0xF#4⟩ ∧
    decode 0xF000#16 = .error ⟨0xF#4, 0x00#8, 0x0#4⟩ ∧
    decode 0xFFFF#16 = .error ⟨0xF#4, 0xFF#8, 0xF#4⟩ := by
  refine ⟨by rfl, by rfl, by rfl, by rfl, by rfl⟩

/-- Bytes are read high byte first, and too few are refused by name (R64). -/
theorem test_decode_bytes :
    decodeBytes [0x60#8, 0x05#8, 0x61#8] = .ok (.ldByte 0x0#4 0x05#8, [0x61#8]) ∧
    encodeBytes (.ldByte 0x0#4 0x05#8) = [0x60#8, 0x05#8] := by
  refine ⟨by rfl, by rfl⟩

/-- A table word is the instruction's word (opcode_table.json, the row DRW). -/
theorem test_decode_table_word :
    decodeTableWord 16 0xD015 = some (.drw 0x0#4 0x1#4 0x5#4) ∧ decodeTableWord 16 0xF000 = none := by
  refine ⟨by rfl, by rfl⟩

/-! ## Register loads, arithmetic, logic -/

/-- T410. -/
theorem test_ld_byte : (after 0x6F42 State.reset).getV vf = 0x42#8 := by decide

/-- T410: no flag. -/
theorem test_add_byte_wraps :
    let t := after 0x7301 (regs [(3, 0xFF), (15, 0x55)])
    t.getV 3 = 0x00#8 ∧ t.getV vf = 0x55#8 := by decide

/-- T410. -/
theorem test_ld_reg : (after 0x8120 (regs [(2, 0x7A)])).getV 1 = 0x7A#8 := by decide

/-- T411: no flag. -/
theorem test_or :
    let t := after 0x8011 (regs [(0, 0x0F), (1, 0xF0), (15, 0x01)])
    t.getV 0 = 0xFF#8 ∧ t.getV vf = 0x01#8 := by decide

/-- T411. -/
theorem test_and : (after 0x8012 (regs [(0, 0x3C), (1, 0x0F)])).getV 0 = 0x0C#8 := by decide

/-- T411. -/
theorem test_xor : (after 0x8013 (regs [(0, 0xFF), (1, 0x0F)])).getV 0 = 0xF0#8 := by decide

/-- T412: Vy is read before the write of VF. -/
theorem test_add_reads_before_writing :
    let t := after 0x80F4 (regs [(0, 0x10), (15, 0xF0)])
    t.getV 0 = 0x00#8 ∧ t.getV vf = 1#8 := by decide

/-- T414: VF as the destination of 8xy4, in both orders. -/
theorem test_add_vf_destination :
    (after 0x8F14 (regs [(15, 0xFF), (1, 0x01)])).getV vf = 0x01#8 ∧
    (after 0x8F14 (withCfg otherFlags (regs [(15, 0xFF), (1, 0x01)]))).getV vf = 0x00#8 := by decide

/-- T412: clamped, not 0xFE. -/
theorem test_sub_clamps :
    let t := after 0x8015 (regs [(0, 3), (1, 5)])
    t.getV 0 = 0x00#8 ∧ t.getV vf = 0#8 := by decide

/-- T412, equal operands, and T414. -/
theorem test_sub_equal_and_vf :
    (after 0x8015 (regs [(0, 5), (1, 5), (15, 7)])).getV vf = 0#8 ∧
    (after 0x8F15 (withCfg otherFlags (regs [(15, 0x10), (1, 0x01)]))).getV vf = 0x0F#8 := by decide

/-- T413: Vy ignored. -/
theorem test_shr :
    let t := after 0x8016 (regs [(0, 0x05), (1, 0xFF)])
    t.getV 0 = 0x02#8 ∧ t.getV vf = 1#8 ∧ t.getV 1 = 0xFF#8 := by decide

/-- T414. -/
theorem test_shr_vf_destination :
    (after 0x8F06 (regs [(15, 0x02)])).getV vf = 0x00#8 ∧
    (after 0x8F06 (withCfg otherFlags (regs [(15, 0x02)]))).getV vf = 0x01#8 := by decide

/-- T413: wraps, no clamp. -/
theorem test_subn_wraps :
    let t := after 0x8017 (regs [(0, 5), (1, 3)])
    t.getV 0 = 0xFE#8 ∧ t.getV vf = 0#8 := by decide

/-- T413 and T414. -/
theorem test_subn_flag :
    (after 0x8017 (regs [(0, 3), (1, 5)])).getV vf = 1#8 ∧
    (after 0x8F17 (withCfg otherFlags (regs [(15, 0x01), (1, 0x03)]))).getV vf = 0x02#8 := by decide

/-- T413: the flag is 0x80 under MASK and 1 under BOOL, Vy ignored. -/
theorem test_shl :
    (after 0x801E (regs [(0, 0xFF)])).getV 0 = 0xFE#8 ∧
    (after 0x801E (regs [(0, 0xFF)])).getV vf = 0x80#8 ∧
    (after 0x801E (withCfg otherFlags (regs [(0, 0xFF)]))).getV vf = 0x01#8 := by decide

/-- T414. -/
theorem test_shl_vf_destination :
    (after 0x8FFE (regs [(15, 0xC1)])).getV vf = 0x80#8 ∧
    (after 0x8FFE (withCfg otherFlags (regs [(15, 0xC1)]))).getV vf = 0x82#8 := by decide

/-- T415. -/
theorem test_rnd :
    (after 0xC30F { State.reset with draws := [0xA5#8] }).getV 3 = 0x05#8 := by decide

/-! ## Control flow -/

/-- T416: SYS faults at pc0 by default. -/
theorem test_sys_faults :
    let t := after 0x0123 State.reset
    t.fault = some ⟨.sysUnsupported 0x123#12, 0x300#16⟩ ∧ t.pc = 0x300#16 := by decide

/-- T416: under NOP only PC advances. -/
theorem test_sys_nop :
    let t := after 0x0123 (withCfg sysNop State.reset)
    t.fault = none ∧ t.pc = 0x302#16 := by decide

/-- T416. -/
theorem test_ret_pops :
    let t := after 0x00EE { State.reset with
      sp := 2, stack := (State.reset.stack.set 0 0x202#16).set 1 0x40A#16 }
    t.pc = 0x40A#16 ∧ t.sp = 1 := by decide

/-- T416. -/
theorem test_ret_underflow :
    let t := after 0x00EE State.reset
    t.fault = some ⟨.stackUnderflow 0x300#16, 0x300#16⟩ ∧ t.pc = 0x300#16 := by decide

/-- R182: the advanced PC is pushed. -/
theorem test_call_pushes :
    let t := after 0x2345 State.reset
    t.stack[0] = 0x302#16 ∧ t.sp = 1 ∧ t.pc = 0x345#16 := by decide

/-- T416: a seventeenth nested call. -/
theorem test_call_overflow :
    let t := after 0x2400 { State.reset with sp := 16 }
    t.fault = some ⟨.stackOverflow 0x300#16, 0x300#16⟩ ∧ t.sp = 16 ∧ t.pc = 0x300#16 := by decide

/-- T416. -/
theorem test_jp : (after 0x1ABC State.reset).pc = 0xABC#16 := by decide

/-- T416. -/
theorem test_se_byte :
    (after 0x3142 (regs [(1, 0x42)])).pc = 0x304#16 ∧ (after 0x3142 (regs [(1, 0x41)])).pc = 0x302#16 := by decide

/-- T416. -/
theorem test_sne_byte :
    (after 0x4142 (regs [(1, 0x42)])).pc = 0x302#16 ∧ (after 0x4142 (regs [(1, 0x41)])).pc = 0x304#16 := by decide

/-- T416: the low nibble is ignored. -/
theorem test_se_reg : (after 0x5127 (regs [(1, 0x40), (2, 0x40)])).pc = 0x304#16 := by decide

/-- T416: x = y never skips. -/
theorem test_sne_reg :
    (after 0x9120 (regs [(1, 1), (2, 2)])).pc = 0x304#16 ∧ (after 0x9110 (regs [(1, 1)])).pc = 0x302#16 := by decide

/-- T416: not reduced modulo 4096; the next step raises FETCH_RANGE. -/
theorem test_jp_v0 :
    let t := after 0xBFFF (regs [(0, 0xFF), (15, 0x01)])
    t.pc = 0x10FE#16 ∧
    ∃ u, step t = .next u ∧ u.fault = some ⟨.fetchRange 0x10FE#16, 0x10FE#16⟩ ∧ u.pc = 0x10FE#16 := by
  refine ⟨by decide, _, rfl, by decide, by decide⟩

/-! ## Index register and memory -/

/-- T417. -/
theorem test_ld_i : (after 0xA123 State.reset).i = 0x123#16 := by decide

/-- T417: past 0xFFF and past 0xFFFF, no flag. -/
theorem test_add_i :
    (after 0xF11E { regs [(1, 1)] with i := 0x0FFF#16 }).i = 0x1000#16 ∧
    (after 0xF11E { regs [(1, 2)] with i := 0xFFFF#16 }).i = 0x0001#16 ∧
    (after 0xF11E { regs [(1, 2)] with i := 0xFFFF#16 }).getV vf = 0#8 := by decide

/-- T405 and T417: only the low nibble counts. -/
theorem test_ld_f :
    (after 0xF029 (regs [(0, 0x0A)])).i = 50#16 ∧ (after 0xF029 (regs [(0, 0x1F)])).i = 0x4B#16 := by decide

/-- T404. -/
theorem test_bcd :
    let t := after 0xF533 { regs [(5, 0xFF)] with i := 0x400#16 }
    t.peeks 0x400 3 = [2#8, 5#8, 5#8] ∧ t.i = 0x400#16 := by decide

/-- T417: one byte past the end, nothing written. -/
theorem test_bcd_range :
    let t := after 0xF033 { regs [(0, 7)] with i := 0xFFE#16 }
    t.fault = some ⟨.memWriteRange 0x1000, 0x300#16⟩ ∧ t.peeks 0xFFE 2 = [0#8, 0#8] := by decide

/-- T417: inclusive, and I unchanged. -/
theorem test_store_registers :
    let t := after 0xF255 { regs [(0, 1), (1, 2), (2, 3), (3, 4)] with i := 0x400#16 }
    t.peeks 0x400 4 = [1#8, 2#8, 3#8, 0#8] ∧ t.i = 0x400#16 := by decide

/-- T417. -/
theorem test_store_registers_range :
    let t := after 0xFF55 { regs [(0, 1)] with i := 0xFF1#16 }
    t.fault = some ⟨.memWriteRange 0x1000, 0x300#16⟩ ∧ t.peek 0xFF1 = 0#8 := by decide

/-- T417: V2 is above x. -/
theorem test_load_registers :
    let t := after 0xF165 (((({ regs [(2, 0x55)] with i := 0x400#16 }).poke 0x400 9).poke 0x401 8).poke 0x402 7)
    t.getV 0 = 9#8 ∧ t.getV 1 = 8#8 ∧ t.getV 2 = 0x55#8 := by decide

/-- T417: no register is written. -/
theorem test_load_registers_range :
    let t := after 0xFF65 { regs [(0, 0x77)] with i := 0xFF1#16 }
    t.fault = some ⟨.memReadRange 0x1000, 0x300#16⟩ ∧ t.getV 0 = 0x77#8 := by decide

/-! ## Display -/

/-- T418. -/
theorem test_cls :
    let t := after 0x00E0 { State.reset with fb := Vector.replicate 32 (BitVec.allOnes 64) }
    t.fb = Vector.replicate 32 0#64 ∧ t.trace = [.clear] := by decide

/-- The start of T403: its sprite at 0x400 (the word stands at 0x300), the corner in V0 and V1. -/
def corner : State := ({ regs [(0, 63), (1, 31)] with i := 0x400#16 }.poke 0x400 0xC0).poke 0x401 0xC0

/-- T403: the sprite wraps on both axes, the events come row by row, and drawing it again clears all four pixels
with VF = 1. The third draw finds the clear screen of the first, so by R221 it gives VF = 0 again (log 11). -/
theorem test_drw_wraps :
    let t := after 0xD012 corner
    let u := after 0xD012 t
    t.trace = [.setPixel 63 31, .setPixel 0 31, .setPixel 63 0, .setPixel 0 0] ∧ t.getV vf = 0#8 ∧
    u.fb = corner.fb ∧ u.getV vf = 1#8 ∧ (after 0xD012 u).getV vf = 0#8 := by decide

/-- T418: collision, and the pixel cleared. -/
theorem test_drw_collision :
    let t := after 0xD011 { after 0xD011 State.reset with i := 5#16 }
    lit t = [(0, 0), (1, 0), (3, 0)] ∧ t.getV vf = 1#8 := by decide

/-! ## Input and timers -/

/-- T419. -/
theorem test_skp :
    (after 0xE19E { regs [(1, 5)] with answers := [true] }).pc = 0x304#16 ∧
    (after 0xE19E { regs [(1, 5)] with answers := [false] }).pc = 0x302#16 := by decide

/-- T419. -/
theorem test_skp_range :
    (after 0xE19E (regs [(1, 0x10)])).fault = some ⟨.keyRange 0x10#8, 0x300#16⟩ := by decide

/-- T419. -/
theorem test_sknp :
    (after 0xE1A1 { regs [(1, 5)] with answers := [false] }).pc = 0x304#16 ∧
    (after 0xE1A1 { regs [(1, 5)] with answers := [true] }).pc = 0x302#16 := by decide

/-- T419. -/
theorem test_ld_k :
    let t := after 0xF30A (regs [(3, 9)])
    t.paused = true ∧ t.pending = 3#4 ∧ t.pc = 0x302#16 ∧ t.getV 3 = 9#8 := by decide

/-- T419: the key-down delivery. -/
theorem test_key_down :
    let t := ({ State.reset with paused := true, pending := 3#4 }).keyDown 0xB#4
    t.getV 3 = 0x0B#8 ∧ t.paused = false := by decide

/-- T419. -/
theorem test_ld_vx_dt : (after 0xF507 { State.reset with dt := 0x3C#8 }).getV 5 = 0x3C#8 := by decide

/-- T419. -/
theorem test_ld_dt_vx : (after 0xF515 (regs [(5, 5)])).dt = 5#8 := by decide

/-- T419. -/
theorem test_ld_st_vx :
    (after 0xF218 (regs [(2, 30)])).st = 30#8 ∧ (after 0xF218 (regs [(2, 30)])).trace = [.tone 30#8] ∧
    (after 0xF218 { State.reset with st := 9#8 }).st = 0#8 ∧
    (after 0xF218 { State.reset with st := 9#8 }).trace = [] := by decide

/-! ## The machine -/

/-- T408: a tick takes one off and stops at zero. -/
theorem test_timer_tick :
    ({ State.reset with dt := 5#8 }).timerTick.dt = 4#8 ∧ State.reset.timerTick.dt = 0#8 := by decide

/-- T406, its first step: the ROM of scenario 1 is loaded at 0x200, and the first slot of the next frame runs
its first word. -/
theorem test_load_then_run :
    ∃ s t, step { State.reset with
        host := [.load [0x60#8, 0x05#8, 0x61#8, 0x03#8, 0x80#8, 0x14#8], .cycle] } = .next s ∧ step s = .next t ∧
      t.getV 0 = 5#8 ∧ t.pc = 0x202#16 ∧ t.phase = .inFrame 9 := by
  refine ⟨_, _, rfl, rfl, by decide, by decide, by decide⟩

/-- T435, its second step: a decode failure halts at the word, with no paint. -/
theorem test_decode_failure_halts :
    let t := after 0x8008 State.reset
    t.fault = some ⟨.decode ⟨0x8#4, 0x08#8, 0x8#4⟩ 0x8008#16, 0x300#16⟩ ∧ t.pc = 0x300#16 ∧
    t.trace = [.halt ⟨.decode ⟨0x8#4, 0x08#8, 0x8#4⟩ 0x8008#16, 0x300#16⟩] ∧
    t.phase = .betweenFrames := by decide

/-- The fault codes (the table of R302). -/
theorem test_fault_codes :
    [FaultCause.fetchRange 0, .decode ⟨0, 0, 0⟩ 0, .memReadRange 0, .memWriteRange 0, .stackOverflow 0,
      .stackUnderflow 0, .sysUnsupported 0, .keyRange 0].map FaultCause.code = [1, 2, 3, 4, 5, 6, 7, 8] := by decide

/-- From reset a `Cycle` call runs the zero word, which is SYS 0x000 (R180). -/
theorem test_reset_steps_to_halt :
    ∃ t, step { State.reset with host := [.cycle] } = .next t ∧ t.fault = some ⟨.sysUnsupported 0#12, 0x200#16⟩ :=
  ⟨_, rfl, by decide⟩

/-- A ROM of 3585 bytes is refused: the host is told, and memory stays (R343); its next move clears the answer. -/
theorem test_load_refused :
    ∃ s t, step { State.reset with host := [.load (List.replicate 3585 1#8), .keyDown 0x2#4] } = .next s ∧
      step s = .next t ∧ s.loadRefused = true ∧ s.mem = [] ∧ t.loadRefused = false := by
  refine ⟨{ State.reset.hostTaken.refuseLoad with host := [.keyDown 0x2#4] }, _, ?_, rfl, rfl, rfl, by decide⟩
  change Host.Outcome.next (State.hostLoad _ _) = _
  rw [State.hostLoad, if_neg (by rw [List.length_replicate]; omega)]
  rfl

/-- The default FONT at its place: glyph 0 and glyph F (D20). -/
theorem test_font :
    State.reset.peeks 0 5 = [0xF0#8, 0x90#8, 0x90#8, 0x90#8, 0xF0#8] ∧
    State.reset.peeks 75 5 = [0xF0#8, 0x80#8, 0xF0#8, 0x80#8, 0x80#8] ∧ State.reset.peek 80 = 0#8 := by decide

/-- Writing a byte's construction value takes it off the list: equal memories are equal data. -/
theorem test_memory_canonical :
    ((State.reset.poke 0x300 7).poke 0x300 0).mem = [] ∧ ((State.reset.poke 0 1).poke 0 0xF0).mem = [] := by decide

/-! ## Witnesses: states and operands that meet the hypotheses of the obligations -/

/-- A core about to run word `w` at 0x300 with nine more slots to come. -/
def running (w : Nat) : State :=
  { ({ State.reset with pc := 0x300#16 }).withFetchWord 16 w with phase := .inFrame 10 }

/-- A core waiting for a key for V3, between frames. -/
def waiting : State := { State.reset with paused := true, pending := 3#4 }

/-- A halted core between frames. -/
def halted : State :=
  { State.reset with fault := some ⟨.keyRange 0x10#8, 0x200#16⟩, trace := [.halt ⟨.keyRange 0x10#8, 0x200#16⟩] }

/-- `s` with the host's next moves. -/
def hostNext (es : List HostEvent) (s : State) : State := { s with host := es }

/-- For `DecodeOfEncode`: extreme operands, and both sides of the SYS hole. -/
theorem witness_decode_of_encode :
    (Instr.sys 0xFFF#12).wf = true ∧ (Instr.sys 0x0DF#12).wf = true ∧ (Instr.drw 0xF#4 0xF#4 0x0#4).wf = true := by
  decide

/-- For `EncodeOfDecode`: a word with ignored bits set and one without. -/
theorem witness_encode_of_decode :
    decode 0x5127#16 = .ok (.seReg 0x1#4 0x2#4) ∧ decode 0xD015#16 = .ok (.drw 0x0#4 0x1#4 0x5#4) :=
  ⟨by rfl, by rfl⟩

/-- For `OpcodeMapRows` and the `Row` clauses of the instruction statements, classes 0 to 7. -/
theorem witness_rows_low :
    (0x0123#16 &&& 0xF000#16 = 0x0000#16 ∧ 0x0123#16 &&& 0xF0FF#16 ≠ 0x00E0#16 ∧
      0x0123#16 &&& 0xF0FF#16 ≠ 0x00EE#16) ∧
    0x0FE0#16 &&& 0xF0FF#16 = 0x00E0#16 ∧ 0x0FEE#16 &&& 0xF0FF#16 = 0x00EE#16 ∧
    0x1ABC#16 &&& 0xF000#16 = 0x1000#16 ∧ 0x2208#16 &&& 0xF000#16 = 0x2000#16 ∧
    0x3142#16 &&& 0xF000#16 = 0x3000#16 ∧ 0x4142#16 &&& 0xF000#16 = 0x4000#16 ∧
    0x512F#16 &&& 0xF000#16 = 0x5000#16 ∧ 0x6AFF#16 &&& 0xF000#16 = 0x6000#16 ∧
    0x7301#16 &&& 0xF000#16 = 0x7000#16 := by decide

/-- The same, class 8. -/
theorem witness_rows_class8 :
    0x8120#16 &&& 0xF00F#16 = 0x8000#16 ∧ 0x8011#16 &&& 0xF00F#16 = 0x8001#16 ∧
    0x8012#16 &&& 0xF00F#16 = 0x8002#16 ∧ 0x8013#16 &&& 0xF00F#16 = 0x8003#16 ∧
    0x8014#16 &&& 0xF00F#16 = 0x8004#16 ∧ 0x8015#16 &&& 0xF00F#16 = 0x8005#16 ∧
    0x8FF6#16 &&& 0xF00F#16 = 0x8006#16 ∧ 0x8017#16 &&& 0xF00F#16 = 0x8007#16 ∧
    0x8FFE#16 &&& 0xF00F#16 = 0x800E#16 := by decide

/-- The same, classes 9 to F. -/
theorem witness_rows_high :
    0x912F#16 &&& 0xF000#16 = 0x9000#16 ∧ 0xA2F0#16 &&& 0xF000#16 = 0xA000#16 ∧
    0xB300#16 &&& 0xF000#16 = 0xB000#16 ∧ 0xC30F#16 &&& 0xF000#16 = 0xC000#16 ∧
    0xD015#16 &&& 0xF000#16 = 0xD000#16 ∧ 0xE19E#16 &&& 0xF0FF#16 = 0xE09E#16 ∧
    0xE1A1#16 &&& 0xF0FF#16 = 0xE0A1#16 ∧ 0xF507#16 &&& 0xF0FF#16 = 0xF007#16 ∧
    0xF30A#16 &&& 0xF0FF#16 = 0xF00A#16 ∧ 0xF515#16 &&& 0xF0FF#16 = 0xF015#16 ∧
    0xF218#16 &&& 0xF0FF#16 = 0xF018#16 ∧ 0xF21E#16 &&& 0xF0FF#16 = 0xF01E#16 ∧
    0xF029#16 &&& 0xF0FF#16 = 0xF029#16 ∧ 0xF533#16 &&& 0xF0FF#16 = 0xF033#16 ∧
    0xF255#16 &&& 0xF0FF#16 = 0xF055#16 ∧ 0xF165#16 &&& 0xF0FF#16 = 0xF065#16 := by decide

/-- For `IllegalWordsAreExactlyThese`: words on the right side of the equivalence, one per class. -/
theorem witness_illegal_words :
    (0x8008#16).extractLsb' 12 4 = 0x8#4 ∧ (0x8008#16).extractLsb' 0 4 ∈ [0x8#4, 0x9#4, 0xA#4, 0xB#4, 0xC#4, 0xD#4, 0xF#4] ∧
    (0xE09F#16).extractLsb' 12 4 = 0xE#4 ∧ (0xE09F#16).extractLsb' 0 8 ∉ [0x9E#8, 0xA1#8] ∧
    (0xF000#16).extractLsb' 12 4 = 0xF#4 ∧ (0xF000#16).extractLsb' 0 8 = 0x00#8 := by decide

/-- For `StepRunsDecodedInstruction`, its first clause, at the last fetchable address too. -/
theorem witness_step_runs :
    (running 0x6005).phase = .inFrame (9 + 1) ∧ (running 0x6005).Running ∧
    (running 0x6005).fetchWord = .ok 0x6005#16 ∧ decode 0x6005#16 = .ok (.ldByte 0x0#4 0x05#8) ∧
    ({ running 0x6005 with pc := 0xFFE#16 }).fetchWord = .ok 0x0000#16 ∧
    decode 0x0000#16 = .ok (.sys 0x000#12) :=
  ⟨by decide, ⟨by decide, by decide⟩, by rfl, by rfl, by rfl, by rfl⟩

/-- For its second clause and `StepsOfAFrameAreItsCycle`: the host calls `Cycle`. -/
theorem witness_cycle_call :
    (hostNext [.cycle] State.reset).phase = .betweenFrames ∧ (hostNext [.cycle] State.reset).nextHost = .cycle ∧
    (hostNext [.cycle] State.reset).fault = none := by decide

/-- For `FetchIsBigEndianAndChecked`: the last legal `PC`, and the first illegal one with a slot to come. -/
theorem witness_fetch_range :
    ({ State.reset with pc := 0xFFE#16 }).pc.toNat ≤ 0xFFE ∧
    ({ running 0x6005 with pc := 0xFFF#16 }).pc.toNat > 0xFFE ∧
    ({ running 0x6005 with pc := 0xFFF#16 }).phase = .inFrame (9 + 1) ∧
    ({ running 0x6005 with pc := 0xFFF#16 }).Running :=
  ⟨by decide, by decide, by decide, by decide, by decide⟩

/-- For `DecodeFailureIsAFault`. -/
theorem witness_decode_failure :
    (running 0x8008).phase = .inFrame (9 + 1) ∧ (running 0x8008).Running ∧
    (running 0x8008).fetchWord = .ok 0x8008#16 ∧ decode 0x8008#16 = .error ⟨0x8#4, 0x08#8, 0x8#4⟩ :=
  ⟨by decide, ⟨by decide, by decide⟩, by rfl, by rfl⟩

/-- For `OutcomesOfAStep`: running cores whose step gives each of the three outcomes. -/
theorem witness_outcomes :
    (running 0x6005).Running ∧ (running 0xF30A).Running ∧ (running 0x8008).Running ∧
    (after 0x6005 State.reset).control = .run ∧ (after 0xF30A State.reset).control = .waitKey ∧
    (after 0x8008 State.reset).control = .halted :=
  ⟨⟨by decide, by decide⟩, ⟨by decide, by decide⟩, ⟨by decide, by decide⟩, by decide, by decide, by decide⟩

/-- For `PausedSlotsAreIdle`: a paused core with a slot to come, the last one too. -/
theorem witness_paused_slot :
    ({ waiting with phase := .inFrame (0 + 1) }).fault = none ∧
    ({ waiting with phase := .inFrame (0 + 1) }).paused = true := by decide

/-- For `HaltedCoreIsInert`: a halted core, `Cycle` or a key-down coming. -/
theorem witness_halted :
    halted.fault ≠ none ∧ halted.phase = .betweenFrames ∧ (hostNext [.cycle] halted).nextHost = .cycle ∧
    (hostNext [.keyDown 0x2#4] halted).nextHost = .keyDown 0x2#4 := by decide

/-- For `OnlyTheseEventsEndAHaltOrAWait`: a reset ends a halt, a key-down ends a wait. -/
theorem witness_exits :
    (∃ t, step (hostNext [.reset] halted) = .next t ∧ t.fault = none) ∧
    (∃ t, step (hostNext [.load [0x60#8]] halted) = .next t ∧ t.fault = none) ∧
    (∃ t, step (hostNext [.keyDown 0xB#4] waiting) = .next t ∧ t.paused = false) :=
  ⟨⟨_, rfl, by decide⟩, ⟨_, rfl, by decide⟩, ⟨_, rfl, by decide⟩⟩

/-- For `StepsOfAFrameAreItsCycle` and `OnePaintPerFrame`: a whole frame, and one a fault cuts short. -/
theorem witness_frame :
    (∃ t, cycle (waiting.hostTaken) = .next t ∧ t.fault = none) ∧
    ∃ t, cycle (State.reset.hostTaken) = .next t ∧ t.fault ≠ none :=
  ⟨⟨_, rfl, by decide⟩, ⟨_, rfl, by decide⟩⟩

/-- For `TimerStepOfAFrame`: both of its timer clauses. -/
theorem witness_frame_end :
    ({ waiting with phase := .inFrame 0 }).fault = none ∧ waiting.cfg.pauseHoldsTimers = true ∧
    ({ State.reset with phase := .inFrame 0 }).fault = none ∧ State.reset.paused = false := by decide

/-- For `TimersStandStillInSlots`: slots that do change a timer. -/
theorem witness_timer_slots :
    (∃ t, step ((running 0xF515).setV 5#4 5#8) = .next t ∧ t.dt ≠ ((running 0xF515).setV 5#4 5#8).dt) ∧
    ∃ t, step ((running 0xF218).setV 2#4 30#8) = .next t ∧ t.st ≠ ((running 0xF218).setV 2#4 30#8).st :=
  ⟨⟨_, rfl, by decide⟩, ⟨_, rfl, by decide⟩⟩

/-- For `KeyDownCompletesTheWait`: a waiting core, one that does not wait, and a halted one. -/
theorem witness_key_down :
    waiting.phase = .betweenFrames ∧ (hostNext [.keyDown 0xF#4] waiting).nextHost = .keyDown 0xF#4 ∧
    waiting.fault = none ∧ waiting.paused = true ∧
    (hostNext [.keyDown 0x2#4] State.reset).paused = false ∧ halted.fault ≠ none := by decide

/-- For `LoadAndResetConstructAnew`: ROMs of 3584 and of 3585 bytes, and a reset. -/
theorem witness_load :
    (hostNext [.load (List.replicate 3584 1#8)] State.reset).nextHost = .load (List.replicate 3584 1#8) ∧
    (List.replicate 3584 1#8).length ≤ 3584 ∧ 3584 < (List.replicate 3585 1#8).length ∧
    (hostNext [.reset] State.reset).nextHost = .reset ∧ State.reset.phase = .betweenFrames := by
  refine ⟨rfl, by rw [List.length_replicate], ?_, by decide, by decide⟩
  rw [List.length_replicate]
  omega

/-- For `ByteReadsAndWrites` and every statement with a canonical memory: the last address and the first that
does not exist, with the outcome of each clause. -/
theorem witness_mem_ok :
    State.reset.MemOk ∧ (State.reset.poke 0xFFF 1#8).MemOk ∧ 0xFFF ≤ 0xFFF ∧ 0x1000 > 0xFFF ∧
    State.reset.loadSpan 0xFFF 1 = .ok [0#8] ∧ State.reset.loadSpan 0x1000 1 = .error (.memReadRange 0x1000) ∧
    State.reset.storeSpan 0x1000 [1#8] = .error (.memWriteRange 0x1000) :=
  ⟨rfl, rfl, by decide, by decide, rfl, rfl, rfl⟩

/-- For `FetchSeesStoredBytes`: the last bytes of memory. -/
theorem witness_fetch_stored :
    let s : State := { regs [(0, 0x60), (1, 0x05)] with i := 0xFFE#16 }
    s.i.toNat + (1#4).toNat ≤ 0xFFF ∧ 0 < (1#4).toNat ∧ ∃ t, exec (.ldMemVx 1#4) s = .next t :=
  ⟨by decide, by decide, _, rfl⟩

/-- For `StepKeepsPcBounds`: `PC` at its bound, a full stack. -/
theorem witness_pc_ok :
    ({ State.reset with pc := 0x10FE#16, sp := 16, stack := Vector.replicate 16 0x1000#16 }).PcOk := by
  refine ⟨by decide, ?_⟩
  intro k _
  revert k
  decide

/-- For `StepKeepsHaltRecord`: a halted core, and it steps. -/
theorem witness_halt_ok : (hostNext [.cycle] halted).HaltOk ∧ ∃ t, step (hostNext [.cycle] halted) = .next t := by
  refine ⟨?_, _, rfl⟩
  intro r hr
  cases hr
  exact ⟨rfl, rfl, rfl⟩

/-- For `StepKeepsFrameBound`: a frame with all its slots to come. -/
theorem witness_frame_ok : ({ State.reset with phase := .inFrame 10 }).FrameOk := by
  intro n hn
  cases hn
  decide

/-- For the invariants together: reset, with the host's move known, steps. -/
theorem witness_reset_steps :
    (hostNext [.cycle] State.reset).MemOk ∧ ∃ t, step (hostNext [.cycle] State.reset) = .next t := ⟨rfl, _, rfl⟩

/-- For `ResultAndFlag`: both of its cases. -/
theorem witness_result_cases : (0x0#4 : Nibble) ≠ vf ∧ (0xF#4 : Nibble) = vf := by decide

/-- For `RandomIsADrawMasked`: a scripted draw. -/
theorem witness_draw : ({ State.reset with draws := [0xA5#8, 0x5A#8] }).draws = 0xA5#8 :: [0x5A#8] := rfl

/-- For `SysFollowsItsPolicy`: both policies. -/
theorem witness_sys_policy :
    State.reset.cfg.sysPolicy = .fault ∧ (withCfg sysNop State.reset).cfg.sysPolicy = .nop := by decide

/-- For `CallPushesAndJumps`, `RetPopsIntoPc` and `RetReturnsAfterItsCall`: the last free slot, a full stack, one
address, none. -/
theorem witness_stack :
    ({ State.reset with sp := 15 }).sp.val < 16 ∧ ({ State.reset with sp := 16 }).sp.val = 16 ∧
    ({ State.reset with sp := 16 }).sp.val = (15 : Fin 16).val + 1 ∧
    ({ State.reset with sp := 1 }).sp.val = (0 : Fin 16).val + 1 ∧ State.reset.sp.val = 0 ∧
    ∃ t, exec (.call 0x208#12) { State.reset with sp := 15 } = .next t :=
  ⟨by decide, by decide, by decide, by decide, by decide, _, rfl⟩

/-- For `JumpsSetPc`: the first target of Bnnn that no fetch accepts. -/
theorem witness_jump_bound : (0xFFF#12 : Addr).toNat + (State.reset.getV 0#4).toNat > 0xFFE := by decide

/-- For `BcdStoresThreeDigits`: the last span that fits and the first that does not. -/
theorem witness_bcd_range :
    ({ State.reset with i := 0xFFD#16 }).MemOk ∧ ({ State.reset with i := 0xFFD#16 }).i.toNat + 2 ≤ 0xFFF ∧
    ({ State.reset with i := 0xFFE#16 }).i.toNat + 2 > 0xFFF := ⟨rfl, by decide, by decide⟩

/-- For `StoreRegistersInclusive` and `LoadRegistersInclusive`: the last span that fits, the first that does
not, and `I` outside memory. -/
theorem witness_register_span :
    ({ State.reset with i := 0xFF0#16 }).i.toNat + (15#4).toNat ≤ 0xFFF ∧
    ({ State.reset with i := 0xFF1#16 }).i.toNat + (15#4).toNat > 0xFFF ∧
    ({ State.reset with i := 0x1000#16 }).i.toNat + (0#4).toNat > 0xFFF ∧
    ({ State.reset with i := 0xFF0#16 }).MemOk := ⟨by decide, by decide, by decide, rfl⟩

/-- For `DrwTogglesTheSprite`: spans that fit (16 rows for n = 0) and one that does not, and a pixel that a set
bit covers. -/
theorem witness_drw :
    ({ State.reset with i := 0xFF0#16 }).i.toNat + rowCount 0#4 - 1 ≤ 0xFFF ∧
    ({ State.reset with i := 0xFF1#16 }).i.toNat + rowCount 0#4 - 1 > 0xFFF ∧
    SpriteCovers State.reset 0#4 1#4 5#4 0 0 ∧ State.reset.pixel 0 0 = false :=
  ⟨by decide, by decide, ⟨0, 0, by decide, by decide, by decide, by decide, by decide⟩, by decide⟩

/-- For `DrwTogglesTheSprite`: a covered pixel that is on. -/
theorem witness_drw_collision :
    let s : State := { State.reset with fb := Vector.replicate 32 (BitVec.allOnes 64) }
    SpriteCovers s 0#4 1#4 5#4 0 0 ∧ s.pixel 0 0 = true :=
  ⟨⟨0, 0, by decide, by decide, by decide, by decide, by decide⟩, by decide⟩

/-- For `DrwTwiceRestoresTheDisplay` and `SecondDrwCollidesIffSpriteNonempty`: two draws of glyph 0 in a row. -/
theorem witness_drw_twice :
    ∃ t w, exec (.drw 0#4 1#4 1#4) State.reset = .next t ∧ exec (.drw 0#4 1#4 1#4) t = .next w ∧
      State.reset.i.toNat + rowCount 1#4 - 1 ≤ 0xFFF ∧ t.fb = t.fb ∧ t.i = State.reset.i ∧
      t.getV 0#4 = State.reset.getV 0#4 ∧ t.getV 1#4 = State.reset.getV 1#4 ∧
      ∀ r, r < rowCount 1#4 → t.peek (State.reset.i.toNat + r) = State.reset.peek (State.reset.i.toNat + r) :=
  ⟨_, _, rfl, rfl, by decide, rfl, by decide, by decide, by decide, by decide⟩

/-- For `KeySkipsFollowTheAnswer`: the last key index and the first value that is none. -/
theorem witness_key_index :
    ((regs [(1, 15)]).getV 1#4).toNat = (15#4 : Nibble).toNat ∧ ((regs [(1, 16)]).getV 1#4).toNat > 15 := by decide

/-- For `EachPartHasItsWriters`: instructions that do write each part. -/
theorem witness_writers :
    (∃ t, exec (.ldI 0x123#12) State.reset = .next t ∧ t.i ≠ State.reset.i) ∧
    (∃ t, exec (.call 0x208#12) State.reset = .next t ∧ t.sp ≠ State.reset.sp) ∧
    (∃ t, exec (.ldDtVx 0#4) (regs [(0, 5)]) = .next t ∧ t.dt ≠ (regs [(0, 5)]).dt) ∧
    (∃ t, exec (.ldStVx 0#4) (regs [(0, 5)]) = .next t ∧ t.st ≠ (regs [(0, 5)]).st) ∧
    (∃ t, exec (.ldVxK 3#4) State.reset = .next t ∧ t.paused ≠ State.reset.paused) ∧
    (∃ t, exec (.ldBVx 0#4) (regs [(0, 5)]) = .next t ∧ t.mem ≠ (regs [(0, 5)]).mem) ∧
    ∃ t, exec (.drw 0#4 0#4 1#4) State.reset = .next t ∧ t.fb ≠ State.reset.fb :=
  ⟨⟨_, rfl, by decide⟩, ⟨_, rfl, by decide⟩, ⟨_, rfl, by decide⟩, ⟨_, rfl, by decide⟩, ⟨_, rfl, by decide⟩,
    ⟨_, rfl, by decide⟩, ⟨_, rfl, by decide⟩⟩

/-- For `GeneralRegisterWriters`: a register written by Fx65, and VF written as a flag. -/
theorem witness_register_writers :
    (∃ t, exec (.ldVxMem 2#4) State.reset = .next t ∧ t.getV 1#4 ≠ State.reset.getV 1#4) ∧
    ∃ t, exec (.addReg 0#4 1#4) (regs [(0, 0xFF), (1, 1)]) = .next t ∧
      t.getV vf ≠ (regs [(0, 0xFF), (1, 1)]).getV vf :=
  ⟨⟨_, rfl, by decide⟩, ⟨_, rfl, by decide⟩⟩

/-- For `UnusedStackSlotsAreUnobservable`: two states that agree in the one used slot alone, and a step. -/
theorem witness_stack_agree :
    let s : State := hostNext [.cycle] { State.reset with sp := 1 }
    StackAgree s { s with stack := s.stack.set 15 0x123#16 } ∧ ∃ t, step s = .next t := by
  refine ⟨⟨rfl, ?_⟩, _, rfl⟩
  decide

end Sys2Proof.Tests
end

section
/-! SUPPORT. What a fault leaves unchanged (R304), what a slot of a running core answers, and with them the
statement about FETCH (R64, R122). -/

namespace Sys2Proof.Machine

variable {s t : State}

/-! ## Frames -/

/-- A fault writes its record, the trace, and `PC` unless it is taken at `PC` itself (R304). -/
theorem State.raiseAt_unchanged {parts : List Part} {p : Word} (c : FaultCause)
    (hpc : Part.pc ∉ parts → p = s.pc) (hfault : Part.fault ∈ parts) (htrace : Part.trace ∈ parts) :
    Unchanged parts s (s.raiseAt p c) where
  regs r _ := s.getV_raiseAt p c r
  index _ := rfl
  pc := hpc
  stack _ := ⟨rfl, rfl⟩
  dt _ := rfl
  st _ := rfl
  keyWait _ := ⟨rfl, rfl⟩
  fault h := absurd hfault h
  display _ x y := s.pixel_raiseAt p c x y
  memory _ a := s.peek_raiseAt p c a
  trace h := absurd htrace h
  draws _ := ⟨rfl, rfl⟩
  answers _ := ⟨rfl, rfl⟩
  cfg := rfl
  host := ⟨rfl, rfl, rfl⟩
  phase := rfl

/-- The end of a slot moves the place in the frame and nothing else. -/
theorem Unchanged.afterSlot {parts : List Part} (h : Unchanged parts s t) (n : Nat) :
    Unchanged parts s { t.afterSlot n with phase := s.phase } :=
  { h with phase := rfl }

/-! ## A slot of a running core -/

/-- A step at a slot of a running core is the instruction step, and then the next slot's place (R128, R129). -/
theorem step_of_running {n : Nat} (hp : s.phase = .inFrame (n + 1)) (hr : s.Running) :
    step s = mapNext (State.afterSlot n) (instrStep s) := by
  rw [step_of_inFrame hp, frameMove_of_succ hp, slot_of_running hr]

/-- A `PC` no fetch accepts: the step takes FETCH_RANGE at that `PC` and does nothing else (R122). -/
theorem step_of_pc_out_of_range {n : Nat} (hpc : s.pc.toNat > 0xFFE) (hp : s.phase = .inFrame (n + 1))
    (hr : s.Running) : step s = .next ((s.raiseAt s.pc (.fetchRange s.pc)).afterSlot n) := by
  rw [step_of_running hp hr, instrStep_of_fetch_error (State.fetchWord_of_gt hpc), mapNext_next]

/-- Settles O7: up to 0xFFE the fetched word is put together from its two bytes, above it the step is the
FETCH_RANGE fault alone. -/
theorem fetchIsBigEndianAndChecked : Obligations.FetchIsBigEndianAndChecked := by
  intro s
  constructor
  · intro hpc
    exact ⟨_, State.fetchWord_of_le hpc, extractLsb'_high_wordOfBytes _ _, extractLsb'_low_wordOfBytes _ _⟩
  · intro n hpc hp hr
    have frame : Unchanged [.fault, .trace] s (s.raiseAt s.pc (.fetchRange s.pc)) :=
      State.raiseAt_unchanged _ (fun _ => rfl) (by decide) (by decide)
    exact ⟨_, _, step_of_pc_out_of_range hpc hp hr, rfl, rfl, frame.afterSlot n⟩

end Sys2Proof.Machine
end

section
/-! SUPPORT. What writing one register, or a result and its flag, changes (R21, R150), the rows of classes 6, 7
and 8 of the opcode map (R101), the values of results and flags (R152 to R160), and with them the statements of
41_arith_logic.md on 6xkk, 7xkk and 8xy0 to 8xy7. -/

namespace Sys2Proof.Machine

variable {s t : State}

/-! ## Frames -/

/-- An update of the register file alone changes the registers it writes. -/
theorem unchanged_of_eq_with_v {parts : List Part} {v : Vector Byte 16} (h : t = { s with v := v })
    (hregs : ∀ r, Part.v r ∉ parts → t.getV r = s.getV r) : Unchanged parts s t := by
  subst h
  exact
    { regs := hregs
      index := fun _ => rfl
      pc := fun _ => rfl
      stack := fun _ => ⟨rfl, rfl⟩
      dt := fun _ => rfl
      st := fun _ => rfl
      keyWait := fun _ => ⟨rfl, rfl⟩
      fault := fun _ => rfl
      display := fun _ _ _ => rfl
      memory := fun _ _ => rfl
      trace := fun _ => rfl
      draws := fun _ => ⟨rfl, rfl⟩
      answers := fun _ => ⟨rfl, rfl⟩
      cfg := rfl
      host := ⟨rfl, rfl, rfl⟩
      phase := rfl }

theorem State.getV_setV_self (x : Nibble) (b : Byte) : (s.setV x b).getV x = b := by
  rw [State.getV_setV, if_pos rfl]

/-- Writing `Vx` changes `Vx` alone (R21). -/
theorem State.setV_unchanged {parts : List Part} {x : Nibble} (hx : Part.v x ∈ parts) (b : Byte) :
    Unchanged parts s (s.setV x b) :=
  unchanged_of_eq_with_v rfl fun r hr => by
    have hne : r ≠ x := fun e => hr (e ▸ hx)
    rw [State.getV_setV, if_neg hne]

/-- Writing a result and its flag changes the register file alone (R150). -/
theorem State.writeResultAndFlag_eq_with_v (x : Nibble) (r f : Byte) :
    s.writeResultAndFlag x r f = { s with v := (s.writeResultAndFlag x r f).v } := by
  unfold State.writeResultAndFlag
  split <;> rfl

/-- Writing a result and its flag changes `Vx` and `VF` alone, in either order (R150). -/
theorem State.writeResultAndFlag_unchanged {parts : List Part} {x : Nibble} (hx : Part.v x ∈ parts)
    (hvf : Part.v vf ∈ parts) (r f : Byte) : Unchanged parts s (s.writeResultAndFlag x r f) :=
  unchanged_of_eq_with_v (State.writeResultAndFlag_eq_with_v x r f) fun q hq => by
    have hqx : q ≠ x := fun e => hq (e ▸ hx)
    have hqvf : q ≠ vf := fun e => hq (e ▸ hvf)
    rw [State.getV_writeResultAndFlag]
    cases s.cfg.vfDestOrder with
    | flagLast => exact (if_neg hqvf).trans (if_neg hqx)
    | resultLast => exact (if_neg hqx).trans (if_neg hqvf)

/-! ## Results and flags -/

/-- The two writes leave the result in `Vx` and the flag in `VF`; where both are `VF` the later one stays
(R150). -/
theorem State.resultAndFlag_writeResultAndFlag (x : Nibble) (r f : Byte) :
    ResultAndFlag s (s.writeResultAndFlag x r f) x r f := by
  constructor
  · intro hx
    rw [State.getV_writeResultAndFlag, State.getV_writeResultAndFlag]
    cases s.cfg.vfDestOrder with
    | flagLast => exact ⟨(if_neg hx).trans (if_pos rfl), if_pos rfl⟩
    | resultLast => exact ⟨if_pos rfl, (if_neg hx.symm).trans (if_pos rfl)⟩
  · rintro rfl
    rw [State.getV_writeResultAndFlag]
    cases s.cfg.vfDestOrder with
    | flagLast => exact if_pos rfl
    | resultLast => exact if_pos rfl

theorem flagOf_decide (p : Prop) [Decidable p] : flagOf (decide p) = if p then 1#8 else 0#8 := by
  simp only [flagOf, decide_eq_true_eq]

theorem toNat_addResult (a b : Byte) : (addResult a b).toNat = (a.toNat + b.toNat) % 256 :=
  BitVec.toNat_ofNat _ 8

theorem toNat_subResult (a b : Byte) : (subResult a b).toNat = a.toNat - b.toNat :=
  (BitVec.toNat_ofNat _ 8).trans (Nat.mod_eq_of_lt ((Nat.sub_le _ _).trans_lt a.isLt))

theorem toNat_shrResult (a : Byte) : (shrResult a).toNat = a.toNat / 2 :=
  (BitVec.toNat_ushiftRight a 1).trans (Nat.shiftRight_one _)

theorem toNat_shrFlag (a : Byte) : (shrFlag a).toNat = a.toNat % 2 :=
  (BitVec.toNat_and a 1#8).trans (Nat.and_one_is_mod _)

theorem toNat_subnResult (a b : Byte) : ((subnResult a b).toNat : Int) = (b.toNat - a.toNat : Int) % 256 := by
  have ha := a.isLt
  rw [subnResult, BitVec.toNat_sub]
  omega

/-! ## Rows of the opcode map (R101) -/

theorem decode_of_class8 {w : Word} (h : iField w = 0x8#4) : decode w = decodeClass8 w := by
  unfold decode
  rw [h]
  rfl

/-- A row of class 8 is settled by the low nibble (R97). -/
theorem row_of_class8 {pat : Word} {mk : Word → Instr} (hi : iField pat = 0x8#4)
    (h : ∀ w, nField w = nField pat → decodeClass8 w = .ok (mk w)) : Row 0xF00F#16 pat mk := by
  intro w hw
  have hclass : iField w = 0x8#4 := (iField_of_and_eq hw (by decide)).trans hi
  rw [decode_of_class8 hclass]
  exact h w (nField_of_and_eq hw (by decide))

/-- A row of a class of one instruction is settled by the top nibble (R94). -/
theorem row_of_class {pat : Word} {mk : Word → Instr}
    (h : ∀ w, iField w = iField pat → decode w = .ok (mk w)) : Row 0xF000#16 pat mk :=
  fun w hw => h w (iField_of_and_eq hw (by decide))

theorem row_ldByte : Row 0xF000#16 0x6000#16 fun w => .ldByte (xField w) (kkField w) :=
  row_of_class fun w h => by unfold decode; rw [h]; rfl

theorem row_addByte : Row 0xF000#16 0x7000#16 fun w => .addByte (xField w) (kkField w) :=
  row_of_class fun w h => by unfold decode; rw [h]; rfl

theorem row_ldReg : Row 0xF00F#16 0x8000#16 fun w => .ldReg (xField w) (yField w) :=
  row_of_class8 rfl fun w h => by unfold decodeClass8; rw [h]; rfl

theorem row_orReg : Row 0xF00F#16 0x8001#16 fun w => .orReg (xField w) (yField w) :=
  row_of_class8 rfl fun w h => by unfold decodeClass8; rw [h]; rfl

theorem row_andReg : Row 0xF00F#16 0x8002#16 fun w => .andReg (xField w) (yField w) :=
  row_of_class8 rfl fun w h => by unfold decodeClass8; rw [h]; rfl

theorem row_xorReg : Row 0xF00F#16 0x8003#16 fun w => .xorReg (xField w) (yField w) :=
  row_of_class8 rfl fun w h => by unfold decodeClass8; rw [h]; rfl

theorem row_addReg : Row 0xF00F#16 0x8004#16 fun w => .addReg (xField w) (yField w) :=
  row_of_class8 rfl fun w h => by unfold decodeClass8; rw [h]; rfl

theorem row_subReg : Row 0xF00F#16 0x8005#16 fun w => .subReg (xField w) (yField w) :=
  row_of_class8 rfl fun w h => by unfold decodeClass8; rw [h]; rfl

theorem row_shrReg : Row 0xF00F#16 0x8006#16 fun w => .shrReg (xField w) (yField w) :=
  row_of_class8 rfl fun w h => by unfold decodeClass8; rw [h]; rfl

theorem row_subnReg : Row 0xF00F#16 0x8007#16 fun w => .subnReg (xField w) (yField w) :=
  row_of_class8 rfl fun w h => by unfold decodeClass8; rw [h]; rfl

/-! ## The statements -/

/-- Settles O30: 6xkk and 8xy0 are one write of a register. -/
theorem loadsWriteOneRegister : Obligations.LoadsWriteOneRegister := by
  refine ⟨row_ldByte, row_ldReg, fun s x y kk => ⟨?ldByte, ?ldReg⟩⟩
  case ldByte => exact ⟨_, rfl, State.getV_setV_self x kk, State.setV_unchanged (by simp) _⟩
  case ldReg => exact ⟨_, rfl, State.getV_setV_self x _, State.setV_unchanged (by simp) _⟩

/-- Settles O31: 7xkk is one write of a register, of the sum modulo 256. -/
theorem addImmediateWrapsWithoutFlag : Obligations.AddImmediateWrapsWithoutFlag := by
  refine ⟨row_addByte, fun s x kk => ⟨_, rfl, ?_, State.setV_unchanged (by simp) _⟩⟩
  rw [State.getV_setV_self, toNat_addResult]

/-- Settles O32: 8xy1, 8xy2 and 8xy3 are one write of a register, of the two operands combined bit by bit. -/
theorem logicIsBitwiseWithoutFlag : Obligations.LogicIsBitwiseWithoutFlag := by
  refine ⟨row_orReg, row_andReg, row_xorReg, fun s x y => ⟨?or, ?and, ?xor⟩⟩
  all_goals refine ⟨_, rfl, State.setV_unchanged (by simp) _, fun k _ => ?_⟩; rw [State.getV_setV_self]
  case or => exact BitVec.getLsbD_or
  case and => exact BitVec.getLsbD_and
  case xor => exact BitVec.getLsbD_xor

/-- Settles O33: 8xy4 writes the sum modulo 256 and the carry. -/
theorem addSetsCarry : Obligations.AddSetsCarry :=
  ⟨row_addReg, fun _ x _ => ⟨_, _, _, rfl, State.resultAndFlag_writeResultAndFlag x _ _,
    State.writeResultAndFlag_unchanged (by simp) (by simp) _ _, toNat_addResult _ _, flagOf_decide _⟩⟩

/-- Settles O34: 8xy5 writes the clamped difference, which is the truncated one of the naturals, and the strict
comparison. -/
theorem subClampsAtZero : Obligations.SubClampsAtZero := by
  refine ⟨row_subReg, fun s x y => ⟨_, _, _, rfl, State.resultAndFlag_writeResultAndFlag x _ _,
    State.writeResultAndFlag_unchanged (by simp) (by simp) _ _, ?_, flagOf_decide _⟩⟩
  rw [toNat_subResult]
  omega

/-- Settles O35: 8xy6 writes half of `Vx` and its old bit 0; the meaning never reads `Vy`. -/
theorem shiftRightMovesBitZeroOut : Obligations.ShiftRightMovesBitZeroOut :=
  ⟨row_shrReg, fun _ x _ => ⟨_, _, _, rfl, State.resultAndFlag_writeResultAndFlag x _ _,
    State.writeResultAndFlag_unchanged (by simp) (by simp) _ _, toNat_shrResult _, toNat_shrFlag _⟩⟩

/-- Settles O36: 8xy7 writes the wrapped difference `Vy - Vx` and the strict comparison. -/
theorem subnWraps : Obligations.SubnWraps :=
  ⟨row_subnReg, fun _ x _ => ⟨_, _, _, rfl, State.resultAndFlag_writeResultAndFlag x _ _,
    State.writeResultAndFlag_unchanged (by simp) (by simp) _ _, toNat_subnResult _ _, flagOf_decide _⟩⟩

end Sys2Proof.Machine
end

section
/-! SUPPORT. What writing `PC` changes (R25), the targets of jumps and skips (R183 to R190), the rows of classes 1,
3, 4, 5, 9 and B of the opcode map (R101), and with them the statements of 42_control_flow.md on jumps and skips. -/

namespace Sys2Proof.Machine

variable {s : State}

/-! ## Frames -/

/-- Writing `PC` changes `PC` alone (R25). -/
theorem State.setPc_unchanged {parts : List Part} (hpc : Part.pc ∈ parts) (w : Word) :
    Unchanged parts s (s.setPc w) where
  regs r _ := s.getV_setPc w r
  index _ := rfl
  pc h := absurd hpc h
  stack _ := ⟨rfl, rfl⟩
  dt _ := rfl
  st _ := rfl
  keyWait _ := ⟨rfl, rfl⟩
  fault _ := rfl
  display _ x y := s.pixel_setPc w x y
  memory _ a := s.peek_setPc w a
  trace _ := rfl
  draws _ := ⟨rfl, rfl⟩
  answers _ := ⟨rfl, rfl⟩
  cfg := rfl
  host := ⟨rfl, rfl, rfl⟩
  phase := rfl

/-- A skip is one write of `PC`: 2 more when taken, the same `PC` when not (R188). -/
theorem State.skipIf_eq_setPc (taken : Bool) :
    s.skipIf taken = s.setPc (if taken then s.pc + 2#16 else s.pc) := by
  cases taken with
  | false => rfl
  | true => rfl

/-- A skip changes `PC` alone (R188). -/
theorem State.skipIf_unchanged {parts : List Part} (hpc : Part.pc ∈ parts) (taken : Bool) :
    Unchanged parts s (s.skipIf taken) := by
  rw [State.skipIf_eq_setPc]
  exact State.setPc_unchanged hpc _

/-! ## Targets -/

/-- A skip on equal operands (R184, R186). -/
theorem State.skipIf_beq_pc (a b : Byte) :
    (s.skipIf (a == b)).pc = if a = b then s.pc + 2#16 else s.pc := by
  simp only [State.skipIf_pc, beq_iff_eq]

/-- A skip on different operands (R185, R187). -/
theorem State.skipIf_bne_pc (a b : Byte) :
    (s.skipIf (a != b)).pc = if a = b then s.pc else s.pc + 2#16 := by
  simp only [State.skipIf_pc, bne_iff_ne, ne_eq, ite_not]

theorem toNat_zextAddr (nnn : Addr) : (zextAddr nnn).toNat = nnn.toNat :=
  BitVec.toNat_setWidth_of_le (by decide)

theorem toNat_zextByte (b : Byte) : (zextByte b).toNat = b.toNat :=
  BitVec.toNat_setWidth_of_le (by decide)

/-- The sum of a 12-bit address and a byte fits 16 bits, so nothing reduces it (R190). -/
theorem toNat_indexedTarget (nnn : Addr) (v0 : Byte) :
    (indexedTarget nnn v0).toNat = nnn.toNat + v0.toNat := by
  have hnnn := nnn.isLt
  have hv0 := v0.isLt
  rw [indexedTarget, BitVec.toNat_add, toNat_zextAddr, toNat_zextByte]
  omega

/-! ## Rows of the opcode map (R101) -/

theorem row_jp : Row 0xF000#16 0x1000#16 fun w => .jp (nnnField w) :=
  row_of_class fun w h => by unfold decode; rw [h]; rfl

theorem row_seByte : Row 0xF000#16 0x3000#16 fun w => .seByte (xField w) (kkField w) :=
  row_of_class fun w h => by unfold decode; rw [h]; rfl

theorem row_sneByte : Row 0xF000#16 0x4000#16 fun w => .sneByte (xField w) (kkField w) :=
  row_of_class fun w h => by unfold decode; rw [h]; rfl

theorem row_seReg : Row 0xF000#16 0x5000#16 fun w => .seReg (xField w) (yField w) :=
  row_of_class fun w h => by unfold decode; rw [h]; rfl

theorem row_sneReg : Row 0xF000#16 0x9000#16 fun w => .sneReg (xField w) (yField w) :=
  row_of_class fun w h => by unfold decode; rw [h]; rfl

theorem row_jpV0 : Row 0xF000#16 0xB000#16 fun w => .jpV0 (nnnField w) :=
  row_of_class fun w h => by unfold decode; rw [h]; rfl

/-! ## The statements -/

/-- Settles O44: each of the four is one skip, on its two operands being equal or different. -/
theorem skipsAddTwoWhenTaken : Obligations.SkipsAddTwoWhenTaken := by
  refine ⟨row_seByte, row_sneByte, row_seReg, row_sneReg, fun s x y kk => ⟨?seByte, ?sneByte, ?seReg, ?sneReg⟩⟩
  case seByte => exact ⟨_, rfl, State.skipIf_unchanged (by simp) _, State.skipIf_beq_pc _ kk⟩
  case sneByte => exact ⟨_, rfl, State.skipIf_unchanged (by simp) _, State.skipIf_bne_pc _ kk⟩
  case seReg => exact ⟨_, rfl, State.skipIf_unchanged (by simp) _, State.skipIf_beq_pc _ _⟩
  case sneReg => exact ⟨_, rfl, State.skipIf_unchanged (by simp) _, State.skipIf_bne_pc _ _⟩

/-- Settles O43: both jumps are one write of `PC`; the target of Bnnn keeps its carry out of 12 bits, so above
0xFFE the next fetch refuses it. -/
theorem jumpsSetPc : Obligations.JumpsSetPc := by
  refine ⟨row_jp, row_jpV0, fun s nnn => ⟨?jp, ?jpV0⟩⟩
  case jp => exact ⟨_, rfl, toNat_zextAddr nnn, State.setPc_unchanged (by simp) _⟩
  case jpV0 =>
    have target := toNat_indexedTarget nnn (s.getV 0#4)
    refine ⟨_, rfl, target, State.setPc_unchanged (by simp) _, fun hrange => ?_⟩
    exact State.fetchWord_of_gt (target ▸ hrange)

end Sys2Proof.Machine
end

section
/-! SUPPORT. What writing `I`, storing a span and loading registers change (R24, R204 to R206), the digits and the
glyph address (R202, R203), the rows of classes A and F of the opcode map (R101), and with them the statements of
43_memory_index.md on Annn, Fx29, Fx33, Fx55 and Fx65. -/

namespace Sys2Proof.Machine

variable {s t : State}

/-! ## Frames -/

/-- Writing `I` changes `I` alone (R24). -/
theorem State.setI_unchanged {parts : List Part} (hi : Part.i ∈ parts) (w : Word) :
    Unchanged parts s (s.setI w) where
  regs r _ := s.getV_setI w r
  index h := absurd hi h
  pc _ := rfl
  stack _ := ⟨rfl, rfl⟩
  dt _ := rfl
  st _ := rfl
  keyWait _ := ⟨rfl, rfl⟩
  fault _ := rfl
  display _ x y := s.pixel_setI w x y
  memory _ a := s.peek_setI w a
  trace _ := rfl
  draws _ := ⟨rfl, rfl⟩
  answers _ := ⟨rfl, rfl⟩
  cfg := rfl
  host := ⟨rfl, rfl, rfl⟩
  phase := rfl

/-- An update of memory alone changes memory alone. -/
theorem unchanged_of_eq_with_mem {parts : List Part} {m : Memory} (h : t = { s with mem := m })
    (hmem : Part.mem ∈ parts) : Unchanged parts s t := by
  subst h
  exact
    { regs := fun _ _ => rfl
      index := fun _ => rfl
      pc := fun _ => rfl
      stack := fun _ => ⟨rfl, rfl⟩
      dt := fun _ => rfl
      st := fun _ => rfl
      keyWait := fun _ => ⟨rfl, rfl⟩
      fault := fun _ => rfl
      display := fun _ _ _ => rfl
      memory := fun hm => absurd hmem hm
      trace := fun _ => rfl
      draws := fun _ => ⟨rfl, rfl⟩
      answers := fun _ => ⟨rfl, rfl⟩
      cfg := rfl
      host := ⟨rfl, rfl, rfl⟩
      phase := rfl }

/-- Storing bytes changes memory alone. -/
theorem State.pokes_unchanged {parts : List Part} (hmem : Part.mem ∈ parts) (a : Nat) (bs : List Byte) :
    Unchanged parts s (s.pokes a bs) :=
  unchanged_of_eq_with_mem (s.pokes_eq a bs) hmem

/-! ## Stored spans (R206) -/

section
variable {a : Nat} {bs : List Byte}

theorem State.finish_storeSpan_of_le (h : a + bs.length ≤ 0x1000) :
    s.finish (s.storeSpan a bs) = .next (s.pokes a bs) := by
  rw [State.storeSpan_eq, if_neg (by omega), State.finish_ok]

theorem State.finish_storeSpan_of_gt (h : a + bs.length > 0x1000) :
    s.finish (s.storeSpan a bs) = .next (s.raise (.memWriteRange (max a 0x1000))) := by
  rw [State.storeSpan_eq, if_pos (by omega), State.finish_error]

theorem State.peek_pokes_inside (hs : s.MemOk) (ha : a + bs.length ≤ 0x1000) (k : Nat) (hk : k < bs.length) :
    (s.pokes a bs).peek (a + k) = bs[k] := by
  have hin : a ≤ a + k ∧ a + k - a < bs.length := by omega
  rw [State.peek_pokes hs ha, dif_pos hin]
  simp only [Nat.add_sub_cancel_left]

theorem State.peek_pokes_outside (hs : s.MemOk) (ha : a + bs.length ≤ 0x1000) {c : Nat}
    (hc : c < a ∨ a + bs.length ≤ c) : (s.pokes a bs).peek c = s.peek c := by
  rw [State.peek_pokes hs ha, dif_neg (by omega)]

end

/-! ## Loaded registers (R205) -/

section
variable (x : Nibble) (a : Nat)

theorem State.finish_loadSpan_of_le {f : List Byte → State} {n : Nat} (h : a + n ≤ 0x1000) :
    s.finish ((s.loadSpan a n).map f) = .next (f (s.peeks a n)) := by
  rw [State.loadSpan_eq, if_neg (by omega)]
  rfl

theorem State.finish_loadSpan_of_gt {f : List Byte → State} {n : Nat} (h : a + n > 0x1000) :
    s.finish ((s.loadSpan a n).map f) = .next (s.raise (.memReadRange (max a 0x1000))) := by
  rw [State.loadSpan_eq, if_pos (by omega)]
  rfl

/-- `V0` to `Vx` loaded from a span at `a`: each its own byte, the registers above `Vx` as before. -/
theorem State.getV_setRegsFrom_peeks (r : Nibble) :
    (s.setRegsFrom 0 (s.peeks a (x.toNat + 1))).getV r =
      if r.toNat ≤ x.toNat then s.peek (a + r.toNat) else s.getV r := by
  have hx := x.isLt
  rw [State.getV_setRegsFrom _ _ _ (by rw [State.length_peeks]; omega)]
  by_cases hr : r.toNat ≤ x.toNat
  · have hin : 0 ≤ r.toNat ∧ r.toNat - 0 < (s.peeks a (x.toNat + 1)).length := by
      rw [State.length_peeks]; omega
    rw [dif_pos hin, if_pos hr, State.getElem_peeks, Nat.sub_zero]
  · have hout : ¬ (0 ≤ r.toNat ∧ r.toNat - 0 < (s.peeks a (x.toNat + 1)).length) := by
      rw [State.length_peeks]; omega
    rw [dif_neg hout, if_neg hr]

/-- The parts that are the registers `V0` to `Vx`. -/
theorem mem_registerParts {r : Nibble} (hr : r.toNat ≤ x.toNat) :
    Part.v r ∈ (List.range (x.toNat + 1)).map fun k => Part.v (BitVec.ofNat 4 k) :=
  List.mem_map.2 ⟨r.toNat, List.mem_range.2 (Nat.lt_succ_of_le hr), by rw [BitVec.ofNat_toNat, BitVec.setWidth_eq]⟩

/-- Loading `V0` to `Vx` from memory changes these registers alone. -/
theorem State.setRegsFrom_peeks_unchanged :
    Unchanged ((List.range (x.toNat + 1)).map fun k => .v (BitVec.ofNat 4 k)) s
      (s.setRegsFrom 0 (s.peeks a (x.toNat + 1))) :=
  unchanged_of_eq_with_v (s.setRegsFrom_eq 0 _) fun r hr => by
    have hgt : ¬ r.toNat ≤ x.toNat := fun hle => hr (mem_registerParts x hle)
    rw [State.getV_setRegsFrom_peeks, if_neg hgt]

end

/-! ## The glyph address and the decimal digits -/

/-- The largest glyph address is 75, so the product is not reduced (R202). -/
theorem toNat_glyphAddr (b : Byte) : (glyphAddr b).toNat = b.toNat % 16 * 5 := by
  have hlow : (b &&& 0x0F#8).toNat = b.toNat % 16 :=
    (BitVec.toNat_and b 0x0F#8).trans (Nat.and_two_pow_sub_one_eq_mod b.toNat 4)
  have hfive : (5#16).toNat = 5 := rfl
  rw [glyphAddr, BitVec.toNat_mul, toNat_zextByte, hlow, hfive]
  omega

@[simp] theorem length_bcdDigits (b : Byte) : (bcdDigits b).length = 3 := rfl

/-- A number no larger than a byte's value fits a byte; each decimal digit of the byte is one (R203). -/
theorem toNat_ofNat_of_le {n : Nat} (b : Byte) (h : n ≤ b.toNat) : (BitVec.ofNat 8 n).toNat = n :=
  (BitVec.toNat_ofNat n 8).trans (Nat.mod_eq_of_lt (h.trans_lt b.isLt))

/-! ## Rows of the opcode map (R101) -/

theorem decode_of_classF {w : Word} (h : iField w = 0xF#4) : decode w = decodeClassF w := by
  unfold decode
  rw [h]
  rfl

/-- A row of class F is settled by the low byte (R99). -/
theorem row_of_classF {pat : Word} {mk : Word → Instr} (hi : iField pat = 0xF#4)
    (h : ∀ w, kkField w = kkField pat → decodeClassF w = .ok (mk w)) : Row 0xF0FF#16 pat mk := by
  intro w hw
  have hclass : iField w = 0xF#4 := (iField_of_and_eq hw (by decide)).trans hi
  rw [decode_of_classF hclass]
  exact h w (kkField_of_and_eq hw (by decide))

theorem row_ldI : Row 0xF000#16 0xA000#16 fun w => .ldI (nnnField w) :=
  row_of_class fun w h => by unfold decode; rw [h]; rfl

theorem row_ldFVx : Row 0xF0FF#16 0xF029#16 fun w => .ldFVx (xField w) :=
  row_of_classF rfl fun w h => by unfold decodeClassF; rw [h]; rfl

theorem row_ldBVx : Row 0xF0FF#16 0xF033#16 fun w => .ldBVx (xField w) :=
  row_of_classF rfl fun w h => by unfold decodeClassF; rw [h]; rfl

theorem row_ldMemVx : Row 0xF0FF#16 0xF055#16 fun w => .ldMemVx (xField w) :=
  row_of_classF rfl fun w h => by unfold decodeClassF; rw [h]; rfl

theorem row_ldVxMem : Row 0xF0FF#16 0xF065#16 fun w => .ldVxMem (xField w) :=
  row_of_classF rfl fun w h => by unfold decodeClassF; rw [h]; rfl

/-! ## The statements -/

/-- Settles O47: Fx33 stores the span of the three digits, or takes the fault of a span that leaves memory. -/
theorem bcdStoresThreeDigits : Obligations.BcdStoresThreeDigits := by
  refine ⟨row_ldBVx, fun s x hs => ?_⟩
  have hlength := length_bcdDigits (s.getV x)
  refine ⟨fun hfit => ?fits, fun hout => State.finish_storeSpan_of_gt (by omega)⟩
  case fits =>
    have hspan : s.i.toNat + (bcdDigits (s.getV x)).length ≤ 0x1000 := by omega
    have digit := State.peek_pokes_inside hs hspan
    exact ⟨_, State.finish_storeSpan_of_le hspan, State.pokes_unchanged (by simp) _ _,
      (congrArg BitVec.toNat (digit 0 (by simp))).trans (toNat_ofNat_of_le (s.getV x) (by omega)),
      (congrArg BitVec.toNat (digit 1 (by simp))).trans (toNat_ofNat_of_le (s.getV x) (by omega)),
      (congrArg BitVec.toNat (digit 2 (by simp))).trans (toNat_ofNat_of_le (s.getV x) (by omega)),
      fun a ha => State.peek_pokes_outside hs hspan (by omega)⟩

/-- Settles O48: Fx55 stores the span of the `x + 1` registers, or takes the fault of a span that leaves memory. -/
theorem storeRegistersInclusive : Obligations.StoreRegistersInclusive := by
  refine ⟨row_ldMemVx, fun s x hs => ?_⟩
  have hlength := s.length_regsThrough x
  refine ⟨fun hfit => ?fits, fun hout => State.finish_storeSpan_of_gt (by omega)⟩
  case fits =>
    have hspan : s.i.toNat + (s.regsThrough x).length ≤ 0x1000 := by omega
    refine ⟨_, State.finish_storeSpan_of_le hspan, State.pokes_unchanged (by simp) _ _, fun k hk => ?_,
      fun a ha => ?_⟩
    · rw [State.peek_pokes_inside hs hspan k (by omega), State.getElem_regsThrough]
    · exact State.peek_pokes_outside hs hspan (by omega)

/-- Settles O49: Fx65 reads the span of `x + 1` bytes into `V0` to `Vx`, or takes the fault of a span that leaves
memory. -/
theorem loadRegistersInclusive : Obligations.LoadRegistersInclusive := by
  refine ⟨row_ldVxMem, fun s x => ⟨fun hfit => ?fits, fun hout => State.finish_loadSpan_of_gt _ (by omega)⟩⟩
  case fits =>
    refine ⟨_, State.finish_loadSpan_of_le _ (by omega), fun r hr => ?_, State.setRegsFrom_peeks_unchanged x _⟩
    rw [State.getV_setRegsFrom_peeks, if_pos hr]

/-- Settles O45: Annn and Fx29 are one write of `I`. -/
theorem indexLoads : Obligations.IndexLoads := by
  refine ⟨row_ldI, row_ldFVx, fun s x nnn => ⟨?ldI, ?ldFVx⟩⟩
  case ldI => exact ⟨_, rfl, toNat_zextAddr nnn, State.setI_unchanged (by simp) _⟩
  case ldFVx => exact ⟨_, rfl, toNat_glyphAddr _, State.setI_unchanged (by simp) _⟩

end Sys2Proof.Machine
end

section
/-! SUPPORT. What clearing the display and drawing a sprite change (R220, R221), the sprite that DRW draws as a list
of pixels (R221 to R223), the rows of 00E0 and Dxyn in the opcode map (R101), and with them the statements of
44_display.md on 00E0 and Dxyn. -/

namespace Sys2Proof.Machine

variable {s t : State}

/-! ## Frames -/

/-- An update of the registers, the framebuffer and the trace alone changes the registers it writes, the
framebuffer and the trace. -/
theorem unchanged_of_eq_with_v_fb_trace {parts : List Part} {v : Vector Byte 16} {fb : Vector (BitVec 64) 32}
    {tr : List Event} (h : t = { s with v := v, fb := fb, trace := tr })
    (hregs : ∀ r, Part.v r ∉ parts → t.getV r = s.getV r) (hfb : Part.fb ∈ parts)
    (htrace : Part.trace ∈ parts) : Unchanged parts s t := by
  subst h
  exact
    { regs := hregs
      index := fun _ => rfl
      pc := fun _ => rfl
      stack := fun _ => ⟨rfl, rfl⟩
      dt := fun _ => rfl
      st := fun _ => rfl
      keyWait := fun _ => ⟨rfl, rfl⟩
      fault := fun _ => rfl
      display := fun h => absurd hfb h
      memory := fun _ _ => rfl
      trace := fun h => absurd htrace h
      draws := fun _ => ⟨rfl, rfl⟩
      answers := fun _ => ⟨rfl, rfl⟩
      cfg := rfl
      host := ⟨rfl, rfl, rfl⟩
      phase := rfl }

/-- Clearing the display changes the framebuffer and the trace alone (R220). -/
theorem State.clearDisplay_unchanged {parts : List Part} (hfb : Part.fb ∈ parts) (htrace : Part.trace ∈ parts) :
    Unchanged parts s s.clearDisplay :=
  unchanged_of_eq_with_v_fb_trace rfl (fun r _ => s.getV_clearDisplay r) hfb htrace

/-! ## The sprite of Dxyn -/

/-- The pixels that DRW `x`, `y`, `n` toggles, in order (R221, R222). -/
def State.sprite (s : State) (x y n : Nibble) : List (Fin 64 × Fin 32) :=
  spritePixels (s.getV x).toNat (s.getV y).toNat (s.peeks s.i.toNat (rowCount n))

/-- The state after a DRW whose rows are in memory (R221). -/
def State.drawSprite (s : State) (x y n : Nibble) : State :=
  (s.setV vf 0#8).drawPixels (s.sprite x y n)

/-- The sprite of rows in memory, row by row. -/
theorem spritePixels_peeks (cx cy a n : Nat) :
    spritePixels cx cy (s.peeks a n) =
      (List.range n).flatMap fun r => rowPixels cx (cy + r) (s.peek (a + r)) := by
  induction n generalizing cy a with
  | zero => rfl
  | succ n ih =>
    rw [State.peeks, spritePixels, ih, List.range_succ_eq_map, List.flatMap_cons, List.flatMap_map]
    simp only [Nat.add_zero, Nat.add_assoc, Nat.succ_eq_add_one, Nat.add_comm 1]

section
variable (x y n : Nibble)

/-- A sprite lists exactly the pixels under its set bits. -/
theorem State.mem_sprite {px : Fin 64} {py : Fin 32} :
    (px, py) ∈ s.sprite x y n ↔ SpriteCovers s x y n px py := by
  simp only [State.sprite, spritePixels_peeks, List.mem_flatMap, List.mem_range, mem_rowPixels, wrapPixel,
    Prod.mk.injEq, Fin.ext_iff]
  constructor
  · rintro ⟨r, hr, c, hc, hbit, hx, hy⟩
    exact ⟨r, c, hr, hc, hbit, hx, hy⟩
  · rintro ⟨r, c, hr, hc, hbit, hx, hy⟩
    exact ⟨r, hr, c, hc, hbit, hx, hy⟩

/-- A sprite is at most 16 rows high, so it lists no pixel twice (R222). -/
theorem State.sprite_nodup : (s.sprite x y n).Nodup := by
  have hrows := (rowCount_bounds n).2
  exact spritePixels_nodup _ _ _ (by rw [State.length_peeks]; omega)

/-- The toggles of a sprite, one event each, are the events of R222. -/
theorem State.map_setPixel_sprite :
    (s.sprite x y n).map (fun p => Event.setPixel p.1 p.2) = spriteEvents s x y n := by
  rw [State.sprite, spritePixels_peeks, List.map_flatMap]
  simp only [rowPixels, List.map_map]
  rfl

theorem State.pixel_drawSprite_of_covers {px : Fin 64} {py : Fin 32} (h : SpriteCovers s x y n px py) :
    (s.drawSprite x y n).pixel px py = !s.pixel px py := by
  have hmem := (State.mem_sprite x y n).2 h
  rw [State.drawSprite, State.pixel_drawPixels _ (State.sprite_nodup x y n), State.pixel_setV, decide_eq_true hmem,
    Bool.xor_true]

theorem State.pixel_drawSprite_of_not_covers {px : Fin 64} {py : Fin 32} (h : ¬ SpriteCovers s x y n px py) :
    (s.drawSprite x y n).pixel px py = s.pixel px py := by
  have hmem := mt (State.mem_sprite x y n).1 h
  rw [State.drawSprite, State.pixel_drawPixels _ (State.sprite_nodup x y n), State.pixel_setV, decide_eq_false hmem,
    Bool.xor_false]

/-- The sprite lists a pixel that is on iff it covers one. -/
theorem State.exists_mem_sprite_pixel :
    (∃ p ∈ s.sprite x y n, (s.setV vf 0#8).pixel p.1 p.2 = true) ↔
      ∃ px py, SpriteCovers s x y n px py ∧ s.pixel px py = true := by
  simp only [Prod.exists, State.mem_sprite, State.pixel_setV]

/-- `VF` after a drawing is 1 if a covered pixel was on. -/
theorem State.getV_vf_drawSprite_of_collision
    (h : ∃ px py, SpriteCovers s x y n px py ∧ s.pixel px py = true) :
    (s.drawSprite x y n).getV vf = 1#8 := by
  rw [State.drawSprite, State.getV_vf_drawPixels _ (State.sprite_nodup x y n),
    if_pos ((State.exists_mem_sprite_pixel x y n).2 h)]

/-- `VF` after a drawing is 0 if no covered pixel was on. -/
theorem State.getV_vf_drawSprite_of_no_collision
    (h : ¬ ∃ px py, SpriteCovers s x y n px py ∧ s.pixel px py = true) :
    (s.drawSprite x y n).getV vf = 0#8 := by
  rw [State.drawSprite, State.getV_vf_drawPixels _ (State.sprite_nodup x y n),
    if_neg (mt (State.exists_mem_sprite_pixel x y n).1 h), State.getV_setV_self]

theorem State.trace_drawSprite : (s.drawSprite x y n).trace = s.trace ++ spriteEvents s x y n := by
  rw [State.drawSprite, State.trace_drawPixels, State.map_setPixel_sprite, State.setV_trace]

/-- Drawing a sprite changes `VF`, the framebuffer and the trace alone. -/
theorem State.drawSprite_unchanged : Unchanged [.v vf, .fb, .trace] s (s.drawSprite x y n) :=
  unchanged_of_eq_with_v_fb_trace ((s.setV vf 0#8).drawPixels_eq (s.sprite x y n))
    (fun r hr => by
      have hne : r ≠ vf := fun e => hr (by simp [e])
      rw [State.drawSprite, State.getV_drawPixels_of_ne _ _ hne, State.getV_setV, if_neg hne])
    (by simp) (by simp)

/-! ## The two outcomes of Dxyn -/

theorem exec_drw_of_le (h : s.i.toNat + rowCount n - 1 ≤ 0xFFF) :
    exec (.drw x y n) s = .next (s.drawSprite x y n) :=
  State.finish_loadSpan_of_le _ (by omega)

theorem exec_drw_of_gt (h : s.i.toNat + rowCount n - 1 > 0xFFF) :
    exec (.drw x y n) s = .next (s.raise (.memReadRange (max s.i.toNat 0x1000))) :=
  State.finish_loadSpan_of_gt _ (by omega)

end

/-! ## Rows of the opcode map (R101) -/

theorem decode_of_class0 {w : Word} (h : iField w = 0x0#4) : decode w = .ok (decodeClass0 w) := by
  unfold decode
  rw [h]
  rfl

theorem row_cls : Row 0xF0FF#16 0x00E0#16 fun _ => .cls := by
  intro w hw
  have hclass : iField w = 0x0#4 := iField_of_and_eq hw (by decide)
  have hlow : kkField w = 0xE0#8 := kkField_of_and_eq hw (by decide)
  rw [decode_of_class0 hclass, decodeClass0, if_pos hlow]

theorem row_drw : Row 0xF000#16 0xD000#16 fun w => .drw (xField w) (yField w) (nField w) :=
  row_of_class fun w h => by unfold decode; rw [h]; rfl

/-! ## The statements -/

/-- Settles O50: 00E0 is the display's `clear()` alone. -/
theorem clsClearsEveryPixel : Obligations.ClsClearsEveryPixel :=
  ⟨row_cls, fun s => ⟨_, rfl, s.pixel_clearDisplay, s.clearDisplay_trace,
    State.clearDisplay_unchanged (by simp) (by simp)⟩⟩

/-- Settles O51: Dxyn draws a sprite that lists each covered pixel once, so a toggle is never undone and a collision
is with a pixel that was on before the DRW; or it takes the fault of a span that leaves memory. -/
theorem drwTogglesTheSprite : Obligations.DrwTogglesTheSprite := by
  refine ⟨row_drw, fun s x y n => ⟨fun hfit => ?fits, exec_drw_of_gt x y n⟩⟩
  case fits =>
    exact ⟨_, exec_drw_of_le x y n hfit, fun _ _ => State.pixel_drawSprite_of_covers x y n,
      fun _ _ => State.pixel_drawSprite_of_not_covers x y n, State.getV_vf_drawSprite_of_collision x y n,
      State.getV_vf_drawSprite_of_no_collision x y n, State.trace_drawSprite x y n,
      State.drawSprite_unchanged x y n⟩

end Sys2Proof.Machine
end

section
/-! SUPPORT. What writing a timer and requesting a tone change (R29, R30, R252), the rows of Fx07, Fx15 and Fx18 in
the opcode map (R101), and with them the statement of 46_timer_sound.md. -/

namespace Sys2Proof.Machine

variable {s t : State}

/-! ## Frames -/

/-- An update of the timers and the trace alone changes those of them whose value is new. -/
theorem unchanged_of_eq_with_dt_st_trace {parts : List Part} {d b : Byte} {tr : List Event}
    (h : t = { s with dt := d, st := b, trace := tr }) (hdt : Part.dt ∉ parts → d = s.dt)
    (hst : Part.st ∉ parts → b = s.st) (htrace : Part.trace ∉ parts → tr = s.trace) : Unchanged parts s t := by
  subst h
  exact
    { regs := fun _ _ => rfl
      index := fun _ => rfl
      pc := fun _ => rfl
      stack := fun _ => ⟨rfl, rfl⟩
      dt := hdt
      st := hst
      keyWait := fun _ => ⟨rfl, rfl⟩
      fault := fun _ => rfl
      display := fun _ _ _ => rfl
      memory := fun _ _ => rfl
      trace := htrace
      draws := fun _ => ⟨rfl, rfl⟩
      answers := fun _ => ⟨rfl, rfl⟩
      cfg := rfl
      host := ⟨rfl, rfl, rfl⟩
      phase := rfl }

/-- Writing `DT` changes `DT` alone (R29). -/
theorem State.setDt_unchanged {parts : List Part} (hdt : Part.dt ∈ parts) (b : Byte) :
    Unchanged parts s (s.setDt b) :=
  unchanged_of_eq_with_dt_st_trace rfl (absurd hdt) (fun _ => rfl) fun _ => rfl

/-- Writing `ST` changes `ST` alone (R30). -/
theorem State.setSt_unchanged {parts : List Part} (hst : Part.st ∈ parts) (b : Byte) :
    Unchanged parts s (s.setSt b) :=
  unchanged_of_eq_with_dt_st_trace rfl (fun _ => rfl) (absurd hst) fun _ => rfl

/-- Writing `ST` and emitting an event changes `ST` and the trace alone (R30, R252). -/
theorem State.emit_setSt_unchanged {parts : List Part} (hst : Part.st ∈ parts) (htrace : Part.trace ∈ parts)
    (b : Byte) (e : Event) : Unchanged parts s ((s.setSt b).emit e) :=
  unchanged_of_eq_with_dt_st_trace rfl (fun _ => rfl) (absurd hst) (absurd htrace)

/-! ## The tone of Fx18 -/

/-- Fx18 writes `ST` and requests a tone exactly for a nonzero value (R252). -/
theorem execLdStVx_st_unchanged_trace {x : Nibble} (h : execLdStVx x s = .next t) :
    t.st = s.getV x ∧ Unchanged [.st, .trace] s t ∧
      t.trace = if s.getV x = 0#8 then s.trace else s.trace ++ [.tone (s.getV x)] := by
  obtain ⟨hzero, rfl⟩ | ⟨hnonzero, rfl⟩ := execLdStVx_cases h
  · exact ⟨rfl, State.setSt_unchanged (by simp) _, (if_pos hzero).symm⟩
  · exact ⟨rfl, State.emit_setSt_unchanged (by simp) (by simp) _ _, (if_neg hnonzero).symm⟩

/-! ## Rows of the opcode map (R101) -/

theorem row_ldVxDt : Row 0xF0FF#16 0xF007#16 fun w => .ldVxDt (xField w) :=
  row_of_classF rfl fun w h => by unfold decodeClassF; rw [h]; rfl

theorem row_ldDtVx : Row 0xF0FF#16 0xF015#16 fun w => .ldDtVx (xField w) :=
  row_of_classF rfl fun w h => by unfold decodeClassF; rw [h]; rfl

theorem row_ldStVx : Row 0xF0FF#16 0xF018#16 fun w => .ldStVx (xField w) :=
  row_of_classF rfl fun w h => by unfold decodeClassF; rw [h]; rfl

/-! ## The statement -/

/-- Settles O56: Fx07 and Fx15 are one write each, Fx18 is a write of `ST` and, for a nonzero value, a tone; a tick
writes the timers alone. -/
theorem timerInstructions : Obligations.TimerInstructions := by
  refine ⟨row_ldVxDt, row_ldDtVx, row_ldStVx, fun s x => ⟨?ldVxDt, ?ldDtVx, ?ldStVx, s.timerTick_trace⟩⟩
  case ldVxDt => exact ⟨_, rfl, State.getV_setV_self x _, State.setV_unchanged (by simp) _⟩
  case ldDtVx => exact ⟨_, rfl, State.setDt_dt s _, State.setDt_unchanged (by simp) _⟩
  case ldStVx => exact ⟨_, rfl, execLdStVx_st_unchanged_trace rfl⟩

end Sys2Proof.Machine
end

section
/-! SUPPORT. One timer counted down `k` times and the state after `k` ticks (R310, R311), and with them the statement
of 60_exceptions.md on the timer unit. -/

namespace Sys2Proof.Machine

/-! ## One counter -/

/-- A tick takes 1 off a counter, and a counter at 0 stays there (R310). -/
theorem toNat_tickDown (b : Byte) : (tickDown b).toNat = b.toNat - 1 := by
  unfold tickDown
  split
  next hpos => exact BitVec.toNat_sub_of_le (y := 1#8) hpos
  next hzero => omega

/-- `k` ticks take `k` off a counter, truncated at 0 (R311). -/
theorem toNat_iterate_tickDown (b : Byte) (k : Nat) : (tickDown^[k] b).toNat = b.toNat - k := by
  induction k with
  | zero => rfl
  | succ k ih => rw [Function.iterate_succ_apply', toNat_tickDown, ih, Nat.sub_sub]

/-! ## The timer unit -/

/-- `k` ticks count each timer down on its own and write nothing else. -/
theorem State.iterate_timerTick (s : State) (k : Nat) :
    State.timerTick^[k] s = { s with dt := tickDown^[k] s.dt, st := tickDown^[k] s.st } := by
  induction k with
  | zero => rfl
  | succ k ih => simp only [Function.iterate_succ_apply', ih, State.timerTick]

/-- Any number of ticks changes the timers alone: no event, no fault (R311). -/
theorem State.iterate_timerTick_unchanged {s : State} {parts : List Part} (hdt : Part.dt ∈ parts)
    (hst : Part.st ∈ parts) (k : Nat) : Unchanged parts s (State.timerTick^[k] s) :=
  unchanged_of_eq_with_dt_st_trace (s.iterate_timerTick k) (absurd hdt) (absurd hst) fun _ => rfl

/-! ## The statement -/

/-- Settles O18: the ticks act on each timer as a counter of its own, which they take down to 0, and on nothing
else. -/
theorem timersCountDownToZero : Obligations.TimersCountDownToZero := by
  intro s k
  refine ⟨?dt, ?st, State.iterate_timerTick_unchanged (by simp) (by simp) k⟩
  case dt => rw [State.iterate_timerTick]; exact toNat_iterate_tickDown s.dt k
  case st => rw [State.iterate_timerTick]; exact toNat_iterate_tickDown s.st k

end Sys2Proof.Machine
end

section
/-! SUPPORT. What the reads of the state give right after construction (R340, R341), and with them the statement of
70_reset_and_hazards.md. -/

namespace Sys2Proof.Machine

/-! ## The reads of the reset state -/

@[simp] theorem State.getV_reset (r : Nibble) : State.reset.getV r = 0#8 := by
  simp [State.getV, State.reset]

@[simp] theorem State.stack_reset (k : Fin 16) : State.reset.stack[k.val] = 0#16 := by
  simp [State.reset]

@[simp] theorem State.pixel_reset (x : Fin 64) (y : Fin 32) : State.reset.pixel x y = false := by
  simp [State.pixel, State.reset]

/-- The reset state lists no byte, so every byte is the one construction gives it (R341). -/
theorem State.peek_reset (a : Nat) : State.reset.peek a = initByte State.reset.cfg.font a :=
  Memory.read_nil a

theorem State.running_reset : State.reset.Running := ⟨rfl, rfl⟩

/-! ## The statement -/

/-- Settles O21: the arrays are zero at every index, the font and the zeros are the construction values of memory,
and a core with no fault and no key wait is in RUN. -/
theorem resetStateIsAsConstructed : Obligations.ResetStateIsAsConstructed :=
  ⟨State.getV_reset, rfl, rfl, rfl, State.stack_reset, rfl, rfl, rfl, rfl, rfl, State.pixel_reset, rfl,
    State.control_run.2 State.running_reset, State.peek_reset⟩

end Sys2Proof.Machine
end

section
/-! SUPPORT. The rows of the opcode map that no section above gives (R101), each class of the decoder read backwards
(R94 to R99), and with them the statements of 30_encoding.md: decoding and encoding undo each other, the 35 rows, and
the words that select no instruction. -/

namespace Sys2Proof.Machine

/-! ## Rows of the opcode map (R101) -/

/-- The SYS row applies to the words of class 0 that are neither CLS nor RET (R96). -/
theorem row_sys {w : Word} (hw : w &&& 0xF000#16 = 0x0000#16) (hcls : kkField w ≠ 0xE0#8)
    (hret : kkField w ≠ 0xEE#8) : decode w = .ok (.sys (nnnField w)) := by
  have hclass : iField w = 0x0#4 := iField_of_and_eq hw (by decide)
  rw [decode_of_class0 hclass, decodeClass0, if_neg hcls, if_neg hret]

theorem row_ret : Row 0xF0FF#16 0x00EE#16 fun _ => .ret := by
  intro w hw
  have hclass : iField w = 0x0#4 := iField_of_and_eq hw (by decide)
  have hlow : kkField w = 0xEE#8 := kkField_of_and_eq hw (by decide)
  rw [decode_of_class0 hclass, decodeClass0, if_neg (by rw [hlow]; decide), if_pos hlow]

theorem row_call : Row 0xF000#16 0x2000#16 fun w => .call (nnnField w) :=
  row_of_class fun w h => by unfold decode; rw [h]; rfl

theorem row_shlReg : Row 0xF00F#16 0x800E#16 fun w => .shlReg (xField w) (yField w) :=
  row_of_class8 rfl fun w h => by unfold decodeClass8; rw [h]; rfl

theorem row_rnd : Row 0xF000#16 0xC000#16 fun w => .rnd (xField w) (kkField w) :=
  row_of_class fun w h => by unfold decode; rw [h]; rfl

theorem decode_of_classE {w : Word} (h : iField w = 0xE#4) : decode w = decodeClassE w := by
  unfold decode
  rw [h]
  rfl

/-- A row of class E is settled by the low byte (R98). -/
theorem row_of_classE {pat : Word} {mk : Word → Instr} (hi : iField pat = 0xE#4)
    (h : ∀ w, kkField w = kkField pat → decodeClassE w = .ok (mk w)) : Row 0xF0FF#16 pat mk := by
  intro w hw
  have hclass : iField w = 0xE#4 := (iField_of_and_eq hw (by decide)).trans hi
  rw [decode_of_classE hclass]
  exact h w (kkField_of_and_eq hw (by decide))

theorem row_skp : Row 0xF0FF#16 0xE09E#16 fun w => .skp (xField w) :=
  row_of_classE rfl fun w h => by unfold decodeClassE; rw [h]; rfl

theorem row_sknp : Row 0xF0FF#16 0xE0A1#16 fun w => .sknp (xField w) :=
  row_of_classE rfl fun w h => by unfold decodeClassE; rw [h]; rfl

theorem row_ldVxK : Row 0xF0FF#16 0xF00A#16 fun w => .ldVxK (xField w) :=
  row_of_classF rfl fun w h => by unfold decodeClassF; rw [h]; rfl

theorem row_addIVx : Row 0xF0FF#16 0xF01E#16 fun w => .addIVx (xField w) :=
  row_of_classF rfl fun w h => by unfold decodeClassF; rw [h]; rfl

/-! ## The decoder read backwards

What a word that decodes to an instruction encodes to: the word, but for the ignored bits (R103). -/

section
variable {w : Word} {i : Instr}

/-- Decoding `w` to `i` loses no bit but the ignored ones. -/
def EncodesBack (w : Word) (i : Instr) : Prop := i.wf = true ∧ encode i = w &&& ~~~ i.ignored

theorem encodesBack_of_nnn {c : Nibble} (hi : iField w = c) (hwf : i.wf = true) (hig : i.ignored = 0x0000#16)
    (he : encode i = c ++ nnnField w) : EncodesBack w i := by
  refine ⟨hwf, ?_⟩
  rw [he, hig, ← hi, iField_append_nnnField]
  exact (and_FFFF w).symm

theorem encodesBack_of_kk {c : Nibble} (hi : iField w = c) (hwf : i.wf = true) (hig : i.ignored = 0x0000#16)
    (he : encode i = c ++ xField w ++ kkField w) : EncodesBack w i := by
  refine ⟨hwf, ?_⟩
  rw [he, hig, ← hi, iField_append_xField_append_kkField]
  exact (and_FFFF w).symm

theorem encodesBack_of_n {c : Nibble} (hi : iField w = c) (hwf : i.wf = true) (hig : i.ignored = 0x0000#16)
    (he : encode i = c ++ xField w ++ yField w ++ nField w) : EncodesBack w i := by
  refine ⟨hwf, ?_⟩
  rw [he, hig, ← hi, append_four_fields]
  exact (and_FFFF w).symm

/-- The rows that ignore the low nibble (R103). -/
theorem encodesBack_of_y {c : Nibble} (hi : iField w = c) (hwf : i.wf = true) (hig : i.ignored = 0x000F#16)
    (he : encode i = c ++ xField w ++ yField w ++ 0x0#4) : EncodesBack w i := by
  refine ⟨hwf, ?_⟩
  rw [he, hig, ← hi, ← and_FFF0_n _ _ _ (nField w), append_four_fields]
  rfl

/-- The rows that ignore bits 11-8 (R103). -/
theorem encodesBack_of_low {c : Nibble} {kk : Byte} (hi : iField w = c) (hkk : kkField w = kk) (hwf : i.wf = true)
    (hig : i.ignored = 0x0F00#16) (he : encode i = c ++ 0x0#4 ++ kk) : EncodesBack w i := by
  refine ⟨hwf, ?_⟩
  rw [he, hig, ← hi, ← hkk, ← and_F0FF_kk _ (xField w), iField_append_xField_append_kkField]
  rfl

/-- The low byte of an address operand of a word is the word's (R91). -/
theorem addrLow_nnnField (w : Word) : addrLow (nnnField w) = kkField w := by
  rw [← kkField_nnn (iField w) (nnnField w), iField_append_nnnField]

theorem encodesBack_of_decodeClass0 (hi : iField w = 0x0#4) : EncodesBack w (decodeClass0 w) := by
  unfold decodeClass0
  split
  next hkk => exact encodesBack_of_low hi hkk rfl rfl rfl
  next hcls =>
    split
    next hkk => exact encodesBack_of_low hi hkk rfl rfl rfl
    next hret =>
      have hwf : (Instr.sys (nnnField w)).wf = true := by
        simp only [Instr.wf, addrLow_nnnField, Bool.and_eq_true, bne_iff_ne]
        exact ⟨hcls, hret⟩
      exact encodesBack_of_nnn hi hwf rfl rfl

theorem encodesBack_of_decodeClass8 (hi : iField w = 0x8#4) (h : decodeClass8 w = .ok i) : EncodesBack w i := by
  unfold decodeClass8 at h
  split at h <;> cases h
  all_goals rename_i hn; exact encodesBack_of_n hi rfl rfl (hn ▸ rfl)

theorem encodesBack_of_decodeClassE (hi : iField w = 0xE#4) (h : decodeClassE w = .ok i) : EncodesBack w i := by
  unfold decodeClassE at h
  split at h <;> cases h
  all_goals rename_i hkk; exact encodesBack_of_kk hi rfl rfl (hkk ▸ rfl)

theorem encodesBack_of_decodeClassF (hi : iField w = 0xF#4) (h : decodeClassF w = .ok i) : EncodesBack w i := by
  unfold decodeClassF at h
  split at h <;> cases h
  all_goals rename_i hkk; exact encodesBack_of_kk hi rfl rfl (hkk ▸ rfl)

end

/-! ## The words that select no instruction (R102) -/

section
variable {w : Word} {d : Discriminant}

/-- Only classes 8, E and F have words without an instruction (R94). -/
theorem decode_error_iff : decode w = .error d ↔
    (iField w = 0x8#4 ∧ decodeClass8 w = .error d) ∨ (iField w = 0xE#4 ∧ decodeClassE w = .error d) ∨
    (iField w = 0xF#4 ∧ decodeClassF w = .error d) := by
  unfold decode
  rcases nibble_cases (iField w) with
    hi | hi | hi | hi | hi | hi | hi | hi | hi | hi | hi | hi | hi | hi | hi | hi <;> simp [hi]

theorem decodeClass8_error_iff : decodeClass8 w = .error d ↔
    d = discriminant w ∧ nField w ∈ [0x8#4, 0x9#4, 0xA#4, 0xB#4, 0xC#4, 0xD#4, 0xF#4] := by
  unfold decodeClass8
  rcases nibble_cases (nField w) with
    hn | hn | hn | hn | hn | hn | hn | hn | hn | hn | hn | hn | hn | hn | hn | hn <;> simp [hn, eq_comm]

theorem decodeClassE_error_iff : decodeClassE w = .error d ↔
    d = discriminant w ∧ kkField w ∉ [0x9E#8, 0xA1#8] := by
  unfold decodeClassE
  split <;> simp_all [eq_comm]

theorem decodeClassF_error_iff : decodeClassF w = .error d ↔
    d = discriminant w ∧
      kkField w ∉ [0x07#8, 0x0A#8, 0x15#8, 0x18#8, 0x1E#8, 0x29#8, 0x33#8, 0x55#8, 0x65#8] := by
  unfold decodeClassF
  split <;> simp_all [eq_comm]

end

/-! ## The statements -/

/-- Settles O2: the encoding of an instruction matches its row (R101), and the row's fields are its operands. -/
theorem decodeOfEncode : Obligations.DecodeOfEncode := by
  intro i hwf
  cases i with
  | sys nnn =>
    simp only [Instr.wf, Bool.and_eq_true, bne_iff_ne] at hwf
    obtain ⟨hcls, hret⟩ := hwf
    have hlow : kkField (encode (.sys nnn)) = addrLow nnn := kkField_nnn _ nnn
    exact (row_sys (Laws.FixedBits.sys nnn) (hlow ▸ hcls) (hlow ▸ hret)).trans (by simp [encode])
  | cls => exact row_cls _ Laws.FixedBits.cls
  | ret => exact row_ret _ Laws.FixedBits.ret
  | jp nnn => exact (row_jp _ (Laws.FixedBits.jp nnn)).trans (by simp [encode])
  | call nnn => exact (row_call _ (Laws.FixedBits.call nnn)).trans (by simp [encode])
  | seByte x kk => exact (row_seByte _ (Laws.FixedBits.seByte x kk)).trans (by simp [encode])
  | sneByte x kk => exact (row_sneByte _ (Laws.FixedBits.sneByte x kk)).trans (by simp [encode])
  | seReg x y => exact (row_seReg _ (Laws.FixedBits.seReg x y)).trans (by simp [encode])
  | ldByte x kk => exact (row_ldByte _ (Laws.FixedBits.ldByte x kk)).trans (by simp [encode])
  | addByte x kk => exact (row_addByte _ (Laws.FixedBits.addByte x kk)).trans (by simp [encode])
  | ldReg x y => exact (row_ldReg _ (Laws.FixedBits.ldReg x y)).trans (by simp [encode])
  | orReg x y => exact (row_orReg _ (Laws.FixedBits.orReg x y)).trans (by simp [encode])
  | andReg x y => exact (row_andReg _ (Laws.FixedBits.andReg x y)).trans (by simp [encode])
  | xorReg x y => exact (row_xorReg _ (Laws.FixedBits.xorReg x y)).trans (by simp [encode])
  | addReg x y => exact (row_addReg _ (Laws.FixedBits.addReg x y)).trans (by simp [encode])
  | subReg x y => exact (row_subReg _ (Laws.FixedBits.subReg x y)).trans (by simp [encode])
  | shrReg x y => exact (row_shrReg _ (Laws.FixedBits.shrReg x y)).trans (by simp [encode])
  | subnReg x y => exact (row_subnReg _ (Laws.FixedBits.subnReg x y)).trans (by simp [encode])
  | shlReg x y => exact (row_shlReg _ (Laws.FixedBits.shlReg x y)).trans (by simp [encode])
  | sneReg x y => exact (row_sneReg _ (Laws.FixedBits.sneReg x y)).trans (by simp [encode])
  | ldI nnn => exact (row_ldI _ (Laws.FixedBits.ldI nnn)).trans (by simp [encode])
  | jpV0 nnn => exact (row_jpV0 _ (Laws.FixedBits.jpV0 nnn)).trans (by simp [encode])
  | rnd x kk => exact (row_rnd _ (Laws.FixedBits.rnd x kk)).trans (by simp [encode])
  | drw x y n => exact (row_drw _ (Laws.FixedBits.drw x y n)).trans (by simp [encode])
  | skp x => exact (row_skp _ (Laws.FixedBits.skp x)).trans (by simp [encode])
  | sknp x => exact (row_sknp _ (Laws.FixedBits.sknp x)).trans (by simp [encode])
  | ldVxDt x => exact (row_ldVxDt _ (Laws.FixedBits.ldVxDt x)).trans (by simp [encode])
  | ldVxK x => exact (row_ldVxK _ (Laws.FixedBits.ldVxK x)).trans (by simp [encode])
  | ldDtVx x => exact (row_ldDtVx _ (Laws.FixedBits.ldDtVx x)).trans (by simp [encode])
  | ldStVx x => exact (row_ldStVx _ (Laws.FixedBits.ldStVx x)).trans (by simp [encode])
  | addIVx x => exact (row_addIVx _ (Laws.FixedBits.addIVx x)).trans (by simp [encode])
  | ldFVx x => exact (row_ldFVx _ (Laws.FixedBits.ldFVx x)).trans (by simp [encode])
  | ldBVx x => exact (row_ldBVx _ (Laws.FixedBits.ldBVx x)).trans (by simp [encode])
  | ldMemVx x => exact (row_ldMemVx _ (Laws.FixedBits.ldMemVx x)).trans (by simp [encode])
  | ldVxMem x => exact (row_ldVxMem _ (Laws.FixedBits.ldVxMem x)).trans (by simp [encode])

/-- Settles O3: in each class the encoder puts the word's own fields back together, with zeros in the bits the row
ignores. -/
theorem encodeOfDecode : Obligations.EncodeOfDecode := by
  intro w i h
  change EncodesBack w i
  unfold decode at h
  split at h
  next hi => cases h; exact encodesBack_of_decodeClass0 hi
  next hi => cases h; exact encodesBack_of_nnn hi rfl rfl rfl
  next hi => cases h; exact encodesBack_of_nnn hi rfl rfl rfl
  next hi => cases h; exact encodesBack_of_kk hi rfl rfl rfl
  next hi => cases h; exact encodesBack_of_kk hi rfl rfl rfl
  next hi => cases h; exact encodesBack_of_y hi rfl rfl rfl
  next hi => cases h; exact encodesBack_of_kk hi rfl rfl rfl
  next hi => cases h; exact encodesBack_of_kk hi rfl rfl rfl
  next hi => exact encodesBack_of_decodeClass8 hi h
  next hi => cases h; exact encodesBack_of_y hi rfl rfl rfl
  next hi => cases h; exact encodesBack_of_nnn hi rfl rfl rfl
  next hi => cases h; exact encodesBack_of_nnn hi rfl rfl rfl
  next hi => cases h; exact encodesBack_of_kk hi rfl rfl rfl
  next hi => cases h; exact encodesBack_of_n hi rfl rfl rfl
  next hi => exact encodesBack_of_decodeClassE hi h
  next =>
    have hi : iField w = 0xF#4 := by
      have := nibble_cases (iField w)
      tauto
    exact encodesBack_of_decodeClassF hi h

/-- Settles O4: the 35 rows together. -/
theorem opcodeMapRows : Obligations.OpcodeMapRows := by
  have sys : ∀ w : Word, w &&& 0xF000#16 = 0x0000#16 → w &&& 0xF0FF#16 ≠ 0x00E0#16 →
      w &&& 0xF0FF#16 ≠ 0x00EE#16 → decode w = .ok (.sys (nnnField w)) := by
    intro w hw hcls hret
    have hclass : iField w = 0x0#4 := iField_of_and_eq hw (by decide)
    have hfields := iField_append_xField_append_kkField w
    have hmask := and_F0FF_kk (iField w) (xField w) (kkField w)
    rw [hfields, hclass] at hmask
    exact row_sys hw (fun hkk => hcls (hmask.trans (by rw [hkk]; rfl)))
      (fun hkk => hret (hmask.trans (by rw [hkk]; rfl)))
  exact ⟨sys, row_cls, row_ret, row_jp, row_call, row_seByte, row_sneByte, row_seReg, row_ldByte, row_addByte,
    row_ldReg, row_orReg, row_andReg, row_xorReg, row_addReg, row_subReg, row_shrReg, row_subnReg, row_shlReg,
    row_sneReg, row_ldI, row_jpV0, row_rnd, row_drw, row_skp, row_sknp, row_ldVxDt, row_ldVxK, row_ldDtVx, row_ldStVx,
    row_addIVx, row_ldFVx, row_ldBVx, row_ldMemVx, row_ldVxMem⟩

/-- Settles O5: a decode failure is one of class 8, E or F, and each of these classes fails on the selectors it does
not list. -/
theorem illegalWordsAreExactlyThese : Obligations.IllegalWordsAreExactlyThese := by
  intro w d
  change _ ↔ d = discriminant w ∧
    (iField w = 0x8#4 ∧ nField w ∈ _ ∨ iField w = 0xE#4 ∧ kkField w ∉ _ ∨ iField w = 0xF#4 ∧ kkField w ∉ _)
  rw [decode_error_iff, decodeClass8_error_iff, decodeClassE_error_iff, decodeClassF_error_iff]
  tauto

/-- Settles O1: the decoder evaluated on the fourteen words. -/
theorem specWordsDecode : Obligations.SpecWordsDecode :=
  ⟨rfl, rfl, rfl, rfl, rfl, rfl, rfl, rfl, rfl, rfl, rfl, rfl, rfl, rfl⟩

end Sys2Proof.Machine
end

section
/-! SUPPORT. What a draw, a query, a key wait and a write of the stack change (R27, R31, R163, R240), how frames
compose, the result and flag of 8xyE (R161), the outcomes of CALL, RET and the key skips (R181, R182, R241, R242), and
with them the statements on single instructions that no section above settles. -/

namespace Sys2Proof.Machine

variable {s t u : State} {parts : List Part}

/-! ## Frames -/

theorem Unchanged.refl : Unchanged parts s s where
  regs _ _ := rfl
  index _ := rfl
  pc _ := rfl
  stack _ := ⟨rfl, rfl⟩
  dt _ := rfl
  st _ := rfl
  keyWait _ := ⟨rfl, rfl⟩
  fault _ := rfl
  display _ _ _ := rfl
  memory _ _ := rfl
  trace _ := rfl
  draws _ := ⟨rfl, rfl⟩
  answers _ := ⟨rfl, rfl⟩
  cfg := rfl
  host := ⟨rfl, rfl, rfl⟩
  phase := rfl

/-- Updates one after the other change what one of them changes. -/
theorem Unchanged.trans (h : Unchanged parts s t) (h' : Unchanged parts t u) : Unchanged parts s u where
  regs r hr := (h'.regs r hr).trans (h.regs r hr)
  index hp := (h'.index hp).trans (h.index hp)
  pc hp := (h'.pc hp).trans (h.pc hp)
  stack hp := ⟨(h'.stack hp).1.trans (h.stack hp).1, (h'.stack hp).2.trans (h.stack hp).2⟩
  dt hp := (h'.dt hp).trans (h.dt hp)
  st hp := (h'.st hp).trans (h.st hp)
  keyWait hp := ⟨(h'.keyWait hp).1.trans (h.keyWait hp).1, (h'.keyWait hp).2.trans (h.keyWait hp).2⟩
  fault hp := (h'.fault hp).trans (h.fault hp)
  display hp x y := (h'.display hp x y).trans (h.display hp x y)
  memory hp a := (h'.memory hp a).trans (h.memory hp a)
  trace hp := (h'.trace hp).trans (h.trace hp)
  draws hp := ⟨(h'.draws hp).1.trans (h.draws hp).1, (h'.draws hp).2.trans (h.draws hp).2⟩
  answers hp := ⟨(h'.answers hp).1.trans (h.answers hp).1, (h'.answers hp).2.trans (h.answers hp).2⟩
  cfg := h'.cfg.trans h.cfg
  host := ⟨h'.host.1.trans h.host.1, h'.host.2.1.trans h.host.2.1, h'.host.2.2.trans h.host.2.2⟩
  phase := h'.phase.trans h.phase

/-- A draw takes one off the environment's draws (R163). -/
theorem State.drawn_unchanged (h : Part.draws ∈ parts) : Unchanged parts s s.drawn :=
  { Unchanged.refl (s := s) with draws := absurd h }

/-- A query takes one off the keyboard's answers (R240). -/
theorem State.asked_unchanged (h : Part.answers ∈ parts) : Unchanged parts s s.asked :=
  { Unchanged.refl (s := s) with answers := absurd h }

/-- A key wait that begins sets the wait alone (R31, R32). -/
theorem State.waitKey_unchanged (h : Part.keyWait ∈ parts) (x : Nibble) : Unchanged parts s (s.waitKey x) :=
  { Unchanged.refl (s := s) with keyWait := absurd h }

/-- An update of the stack and `PC` alone changes these alone. -/
theorem unchanged_of_eq_with_stack_pc {k : Vector Word 16} {n : Fin 17} {w : Word}
    (h : t = { s with stack := k, sp := n, pc := w }) (hstack : Part.stack ∈ parts) (hpc : Part.pc ∈ parts) :
    Unchanged parts s t := by
  subst h
  exact { Unchanged.refl (s := s) with stack := absurd hstack, pc := absurd hpc }

/-- A fault inside a meaning writes `PC`, its record and the trace alone (R304). -/
theorem State.raise_unchanged (c : FaultCause) : Unchanged [.pc, .fault, .trace] s (s.raise c) :=
  State.raiseAt_unchanged c (fun h => absurd (by simp) h) (by simp) (by simp)

/-- A skip on the answer to a query changes `PC` and the answers alone (R241, R242). -/
theorem State.skipIf_asked_unchanged (hpc : Part.pc ∈ parts) (hanswers : Part.answers ∈ parts) (taken : Bool) :
    Unchanged parts s (s.asked.skipIf taken) :=
  (State.asked_unchanged hanswers).trans (State.skipIf_unchanged hpc taken)

/-- A draw put into a register changes that register and the draws alone (R163). -/
theorem State.setV_drawn_unchanged {x : Nibble} (hx : Part.v x ∈ parts) (hdraws : Part.draws ∈ parts) (b : Byte) :
    Unchanged parts s (s.drawn.setV x b) :=
  (State.drawn_unchanged hdraws).trans (State.setV_unchanged hx b)

/-! ## The stack (R181, R182) -/

/-- The state after a CALL with a free slot. -/
def State.called (s : State) (h : s.sp.val < 16) (nnn : Addr) : State :=
  { s with stack := s.stack.set s.sp.val s.pc h, sp := ⟨s.sp.val + 1, by omega⟩, pc := zextAddr nnn }

/-- The state after a RET with an address held. -/
def State.returned (s : State) (h : 0 < s.sp.val) : State :=
  { s with sp := ⟨s.sp.val - 1, by omega⟩, pc := s.stack[s.sp.val - 1]'(by omega) }

theorem exec_call_of_lt (h : s.sp.val < 16) (nnn : Addr) : exec (.call nnn) s = .next (s.called h nnn) := by
  rw [exec, execCall, State.push_of_lt h]
  rfl

theorem exec_call_of_full (h : s.sp.val = 16) (nnn : Addr) :
    exec (.call nnn) s = .next (s.raise (.stackOverflow (s.pc - 2#16))) := by
  rw [exec, execCall, State.push_of_full h]
  rfl

theorem exec_ret_of_pos (h : 0 < s.sp.val) : exec .ret s = .next (s.returned h) := by
  rw [exec, execRet, State.pop_of_pos h]
  rfl

theorem exec_ret_of_empty (h : s.sp.val = 0) :
    exec .ret s = .next (s.raise (.stackUnderflow (s.pc - 2#16))) := by
  rw [exec, execRet, State.pop_of_empty h]
  rfl

/-- A CALL writes the slot at `SP` alone (R182). -/
theorem State.getElem_stack_called (h : s.sp.val < 16) (nnn : Addr) (k : Fin 16) :
    (s.called h nnn).stack[k.val] = if k.val = s.sp.val then s.pc else s.stack[k.val] := by
  simp only [State.called, Vector.getElem_set, eq_comm]

/-! ## The key skips (R241, R242) -/

theorem keyIndex_of_toNat_eq {b : Byte} {k : Nibble} (h : b.toNat = k.toNat) : keyIndex b = .ok k := by
  have hk := k.isLt
  have hkey : b.setWidth 4 = k := BitVec.eq_of_toNat_eq (by rw [BitVec.toNat_setWidth, h]; exact Nat.mod_eq_of_lt hk)
  rw [keyIndex, if_neg (by omega), hkey]

theorem keyIndex_of_gt {b : Byte} (h : b.toNat > 15) : keyIndex b = .error (.keyRange b) := if_pos h

theorem exec_skp_of_key {x k : Nibble} (h : (s.getV x).toNat = k.toNat) :
    exec (.skp x) s = .next (s.asked.skipIf (s.nextPressed k)) := by
  rw [exec, execSkp, keyIndex_of_toNat_eq h]
  rfl

theorem exec_sknp_of_key {x k : Nibble} (h : (s.getV x).toNat = k.toNat) :
    exec (.sknp x) s = .next (s.asked.skipIf (!s.nextPressed k)) := by
  rw [exec, execSknp, keyIndex_of_toNat_eq h]
  rfl

theorem exec_skp_of_gt {x : Nibble} (h : (s.getV x).toNat > 15) :
    exec (.skp x) s = .next (s.raise (.keyRange (s.getV x))) := by
  rw [exec, execSkp, keyIndex_of_gt h]
  rfl

theorem exec_sknp_of_gt {x : Nibble} (h : (s.getV x).toNat > 15) :
    exec (.sknp x) s = .next (s.raise (.keyRange (s.getV x))) := by
  rw [exec, execSknp, keyIndex_of_gt h]
  rfl

/-! ## The two policies of 0nnn (R180) -/

theorem exec_sys_of_nop (h : s.cfg.sysPolicy = .nop) (nnn : Addr) : exec (.sys nnn) s = .next s := by
  rw [exec, execSys, h]
  rfl

theorem exec_sys_of_fault (h : s.cfg.sysPolicy = .fault) (nnn : Addr) :
    exec (.sys nnn) s = .next (s.raise (.sysUnsupported nnn)) := by
  rw [exec, execSys, h]
  rfl

/-! ## The result and flag of 8xyE (R161) -/

theorem toNat_shlResult (a : Byte) : (shlResult a).toNat = a.toNat * 2 % 256 := by
  rw [shlResult, BitVec.toNat_shiftLeft, Nat.shiftLeft_eq]

/-- Bit 7 of a byte is set from 128 on, in either form of the flag. -/
theorem shlFlag_eq (form : ShlFlagForm) (a : Byte) :
    shlFlag form a = if a.toNat < 128 then 0#8 else match form with | .mask => 0x80#8 | .bool => 0x01#8 := by
  have ha := a.isLt
  have hbit : a.toNat.testBit 7 = decide (128 ≤ a.toNat) := BitVec.msb_eq_decide a
  have hmask : (a &&& 0x80#8).toNat = (a.toNat.testBit 7).toNat * 128 :=
    (BitVec.toNat_and a 0x80#8).trans (Nat.and_two_pow a.toNat 7)
  have hbool : (a >>> 7 &&& 0x01#8).toNat = a.toNat / 128 % 2 := by
    rw [BitVec.toNat_and, BitVec.toNat_ushiftRight, Nat.shiftRight_eq_div_pow]
    exact Nat.and_one_is_mod _
  apply BitVec.eq_of_toNat_eq
  by_cases hlt : a.toNat < 128
  · rw [if_pos hlt]
    cases form with
    | mask => exact hmask.trans (by rw [hbit, decide_eq_false (by omega)]; rfl)
    | bool => exact hbool.trans (by rw [Nat.div_eq_of_lt hlt]; rfl)
  · rw [if_neg hlt]
    cases form with
    | mask => exact hmask.trans (by rw [hbit, decide_eq_true (by omega)]; rfl)
    | bool => exact hbool.trans (by rw [show a.toNat / 128 = 1 by omega]; rfl)

/-! ## The statements -/

/-- Settles O11: `pc0` is `PC - 2` while a meaning runs. -/
theorem faultsArePrecise : Obligations.FaultsArePrecise :=
  fun s c => ⟨s.raise_pc c, s.raise_fault c, s.raise_trace c, State.raise_unchanged c⟩

/-- Settles O37: 8xyE writes the doubled `Vx` and its old bit 7; the meaning never reads `Vy`. -/
theorem shiftLeftMovesBitSevenOut : Obligations.ShiftLeftMovesBitSevenOut :=
  ⟨row_shlReg, fun _ x _ => ⟨_, _, _, rfl, State.resultAndFlag_writeResultAndFlag x _ _,
    State.writeResultAndFlag_unchanged (by simp) (by simp) _ _, toNat_shlResult _, shlFlag_eq _ _⟩⟩

/-- Settles O38: Cxkk is one draw and one write of a register, of the draw under the mask. -/
theorem randomIsADrawMasked : Obligations.RandomIsADrawMasked := by
  intro s x kk
  have hx : (s.drawn.setV x (s.nextDraw &&& kk)).getV x = s.nextDraw &&& kk := State.getV_setV_self x _
  refine ⟨_, rfl, hx, rfl, ?script, ?none, ?all, State.setV_drawn_unchanged (by simp) (by simp) _⟩
  case script =>
    intro b bs hdraws
    simp only [State.nextDraw, State.setV_draws, State.drawn_draws, hdraws, List.headD_cons, List.tail_cons, and_self]
  case none =>
    rintro rfl
    exact hx.trans BitVec.and_zero
  case all =>
    rintro rfl
    exact hx.trans BitVec.and_allOnes

/-- Settles O39: the policy alone chooses. -/
theorem sysFollowsItsPolicy : Obligations.SysFollowsItsPolicy :=
  fun _ nnn => ⟨fun h => exec_sys_of_nop h nnn, fun h => exec_sys_of_fault h nnn⟩

/-- Settles O40: CALL pushes onto a free slot, or takes the fault of a full stack. -/
theorem callPushesAndJumps : Obligations.CallPushesAndJumps := by
  refine fun s nnn => ⟨fun h => ⟨_, exec_call_of_lt h nnn, ?_⟩, fun h => exec_call_of_full h nnn⟩
  exact ⟨toNat_zextAddr nnn, rfl, State.getElem_stack_called h nnn,
    unchanged_of_eq_with_stack_pc rfl (by simp) (by simp)⟩

/-- Settles O41: RET pops the top address, or takes the fault of an empty stack. -/
theorem retPopsIntoPc : Obligations.RetPopsIntoPc := by
  refine fun s => ⟨fun k hk => ?pop, exec_ret_of_empty⟩
  case pop =>
    have htop : s.sp.val - 1 = k.val := by omega
    refine ⟨_, exec_ret_of_pos (by omega), ?_, htop, rfl, unchanged_of_eq_with_stack_pc rfl (by simp) (by simp)⟩
    simp only [State.returned, htop]

/-- Settles O42: the CALL leaves its advanced `PC` in the top slot, which is what the RET reads. -/
theorem retReturnsAfterItsCall : Obligations.RetReturnsAfterItsCall := by
  intro s t u nnn hfree hcall hsp hstack
  rw [exec_call_of_lt hfree] at hcall
  cases hcall
  have hdepth : u.sp.val = s.sp.val + 1 := congrArg Fin.val hsp
  have htop : u.sp.val - 1 = s.sp.val := by omega
  refine ⟨_, exec_ret_of_pos (by omega), ?_, Fin.ext htop⟩
  have hslot := State.getElem_stack_called hfree nnn ⟨s.sp.val, hfree⟩
  simp only [State.returned, hstack, htop]
  exact hslot.trans (if_pos rfl)

/-- Settles O46: Fx1E is one write of `I`, of the sum modulo 65536. -/
theorem indexAddWrapsWithoutFlag : Obligations.IndexAddWrapsWithoutFlag := by
  refine fun s x => ⟨_, rfl, ?_, State.setI_unchanged (by simp) _⟩
  rw [State.setI_i, BitVec.toNat_add, toNat_zextByte]

/-- Settles O54: a key index is asked for once and the skip is on the answer; above 15 there is only the fault. -/
theorem keySkipsFollowTheAnswer : Obligations.KeySkipsFollowTheAnswer := by
  refine fun s x => ⟨fun k hk => ⟨?skp, ?sknp⟩, fun h => ⟨exec_skp_of_gt h, exec_sknp_of_gt h⟩⟩
  case skp =>
    exact ⟨_, exec_skp_of_key hk, State.skipIf_asked_unchanged (by simp) (by simp) _, State.skipIf_askCount _ _,
      State.skipIf_answers _ _, State.skipIf_pc _ _⟩
  case sknp =>
    refine ⟨_, exec_sknp_of_key hk, State.skipIf_asked_unchanged (by simp) (by simp) _, State.skipIf_askCount _ _,
      State.skipIf_answers _ _, (State.skipIf_pc _ _).trans ?_⟩
    cases s.nextPressed k <;> rfl

/-- Settles O55: Fx0A is the begin of a key wait alone. -/
theorem keyWaitBegins : Obligations.KeyWaitBegins :=
  ⟨row_ldVxK, fun _ x => ⟨_, rfl, rfl, rfl, State.waitKey_unchanged (by simp) x⟩⟩

end Sys2Proof.Machine
end

section
/-! SUPPORT. What an instruction can do, said once: the parts it writes where it completes (10_state.md), the events it
emits, and the fault of the table of R302 it takes where it does not; with them the statements on faults and on the
writers of each part. -/

namespace Sys2Proof.Machine

variable {i : Instr} {s t : State}

/-! ## The parts an instruction writes -/

/-- The parts of the state the instruction writes when it completes (R21 to R39). -/
def writtenParts : Instr → List Part
  | .sys _ => []
  | .cls => [.fb, .trace]
  | .ret | .call _ => [.pc, .stack]
  | .jp _ | .jpV0 _ => [.pc]
  | .seByte _ _ | .sneByte _ _ | .seReg _ _ | .sneReg _ _ => [.pc]
  | .ldByte x _ | .addByte x _ | .ldVxDt x => [.v x]
  | .ldReg x _ | .orReg x _ | .andReg x _ | .xorReg x _ => [.v x]
  | .addReg x _ | .subReg x _ | .shrReg x _ | .subnReg x _ | .shlReg x _ => [.v x, .v vf]
  | .rnd x _ => [.v x, .draws]
  | .ldI _ | .addIVx _ | .ldFVx _ => [.i]
  | .drw _ _ _ => [.v vf, .fb, .trace]
  | .skp _ | .sknp _ => [.pc, .answers]
  | .ldVxK _ => [.keyWait]
  | .ldDtVx _ => [.dt]
  | .ldStVx _ => [.st, .trace]
  | .ldBVx _ | .ldMemVx _ => [.mem]
  | .ldVxMem x => (List.range (x.toNat + 1)).map fun k => .v (BitVec.ofNat 4 k)

/-- The event is one an instruction emits when it completes: neither the report of a fault nor a `Paint` (R326). -/
def Event.OfMeaning : Event → Prop
  | .clear | .setPixel _ _ | .tone _ => True
  | .paint | .halt _ => False

/-- The instruction completes from `s` in `t`: it writes its parts alone, stores nothing unless memory is one of them,
and adds to the trace only events of its own. -/
structure Completes (i : Instr) (s t : State) : Prop where
  frame : Unchanged (writtenParts i) s t
  mem : Part.mem ∉ writtenParts i → t.mem = s.mem
  events : ∃ es, t.trace = s.trace ++ es ∧ ∀ e ∈ es, e.OfMeaning

/-- An instruction that emits nothing and stores nothing completes when it writes its parts alone. -/
theorem Completes.of_silent (h : Unchanged (writtenParts i) s t) (hmem : t.mem = s.mem)
    (htrace : t.trace = s.trace) : Completes i s t :=
  ⟨h, fun _ => hmem, [], by rw [htrace, List.append_nil], by simp⟩

/-- An instruction that stores a span completes. -/
theorem Completes.of_pokes (a : Nat) (bs : List Byte) (hmem : Part.mem ∈ writtenParts i := by simp [writtenParts]) :
    Completes i s (s.pokes a bs) :=
  ⟨State.pokes_unchanged hmem a bs, absurd hmem, [], by rw [State.pokes_eq, List.append_nil], by simp⟩

/-! Which parts are written is read off `writtenParts` where the instruction is known. -/

theorem Completes.of_setV {x : Nibble} (b : Byte) (hx : Part.v x ∈ writtenParts i := by simp [writtenParts]) :
    Completes i s (s.setV x b) :=
  .of_silent (State.setV_unchanged hx b) rfl rfl

theorem Completes.of_writeResultAndFlag {x : Nibble} (r f : Byte)
    (hx : Part.v x ∈ writtenParts i := by simp [writtenParts])
    (hvf : Part.v vf ∈ writtenParts i := by simp [writtenParts]) : Completes i s (s.writeResultAndFlag x r f) :=
  .of_silent (State.writeResultAndFlag_unchanged hx hvf r f) (by simp) (by simp)

theorem Completes.of_setPc (w : Word) (hpc : Part.pc ∈ writtenParts i := by simp [writtenParts]) :
    Completes i s (s.setPc w) :=
  .of_silent (State.setPc_unchanged hpc w) rfl rfl

theorem Completes.of_skipIf (taken : Bool) (hpc : Part.pc ∈ writtenParts i := by simp [writtenParts]) :
    Completes i s (s.skipIf taken) :=
  .of_silent (State.skipIf_unchanged hpc taken) (by simp) (by simp)

theorem Completes.of_skipIf_asked (taken : Bool) (hpc : Part.pc ∈ writtenParts i := by simp [writtenParts])
    (ha : Part.answers ∈ writtenParts i := by simp [writtenParts]) : Completes i s (s.asked.skipIf taken) :=
  .of_silent (State.skipIf_asked_unchanged hpc ha taken) (by simp) (by simp)

theorem Completes.of_setI (w : Word) (hi : Part.i ∈ writtenParts i := by simp [writtenParts]) :
    Completes i s (s.setI w) :=
  .of_silent (State.setI_unchanged hi w) rfl rfl

/-- A sprite drawn emits `SetPixel` events alone (R222). -/
theorem ofMeaning_of_mem_spriteEvents {x y n : Nibble} {e : Event} (h : e ∈ spriteEvents s x y n) : e.OfMeaning := by
  rw [← State.map_setPixel_sprite] at h
  obtain ⟨p, _, rfl⟩ := List.mem_map.1 h
  trivial

theorem State.drawSprite_mem (x y n : Nibble) : (s.drawSprite x y n).mem = s.mem := by
  rw [State.drawSprite, State.drawPixels_eq]
  rfl

/-! ## What an instruction can do -/

/-- Every instruction completes, or takes one of its faults and does nothing else (R302, R304). -/
theorem exec_cases (i : Instr) (s : State) :
    (∃ t, exec i s = .next t ∧ Completes i s t) ∨
    ∃ c, mayRaise i c = true ∧ exec i s = .next (s.raise c) := by
  cases i with
  | sys nnn =>
    cases hp : s.cfg.sysPolicy with
    | nop => exact .inl ⟨_, exec_sys_of_nop hp nnn, .of_silent .refl rfl rfl⟩
    | fault => exact .inr ⟨_, rfl, exec_sys_of_fault hp nnn⟩
  | cls =>
    exact .inl ⟨_, rfl, State.clearDisplay_unchanged (by simp [writtenParts]) (by simp [writtenParts]), fun _ => rfl,
      [.clear], s.clearDisplay_trace, by simp [Event.OfMeaning]⟩
  | ret =>
    by_cases h : 0 < s.sp.val
    · exact .inl ⟨_, exec_ret_of_pos h,
        .of_silent (unchanged_of_eq_with_stack_pc rfl (by simp [writtenParts]) (by simp [writtenParts])) rfl rfl⟩
    · exact .inr ⟨_, rfl, exec_ret_of_empty (by omega)⟩
  | jp nnn => exact .inl ⟨_, rfl, .of_setPc _⟩
  | call nnn =>
    by_cases h : s.sp.val < 16
    · exact .inl ⟨_, exec_call_of_lt h nnn,
        .of_silent (unchanged_of_eq_with_stack_pc rfl (by simp [writtenParts]) (by simp [writtenParts])) rfl rfl⟩
    · exact .inr ⟨_, rfl, exec_call_of_full (by omega) nnn⟩
  | seByte x kk => exact .inl ⟨_, rfl, .of_skipIf _⟩
  | sneByte x kk => exact .inl ⟨_, rfl, .of_skipIf _⟩
  | seReg x y => exact .inl ⟨_, rfl, .of_skipIf _⟩
  | ldByte x kk => exact .inl ⟨_, rfl, .of_setV _⟩
  | addByte x kk => exact .inl ⟨_, rfl, .of_setV _⟩
  | ldReg x y => exact .inl ⟨_, rfl, .of_setV _⟩
  | orReg x y => exact .inl ⟨_, rfl, .of_setV _⟩
  | andReg x y => exact .inl ⟨_, rfl, .of_setV _⟩
  | xorReg x y => exact .inl ⟨_, rfl, .of_setV _⟩
  | addReg x y => exact .inl ⟨_, rfl, .of_writeResultAndFlag _ _⟩
  | subReg x y => exact .inl ⟨_, rfl, .of_writeResultAndFlag _ _⟩
  | shrReg x y => exact .inl ⟨_, rfl, .of_writeResultAndFlag _ _⟩
  | subnReg x y => exact .inl ⟨_, rfl, .of_writeResultAndFlag _ _⟩
  | shlReg x y => exact .inl ⟨_, rfl, .of_writeResultAndFlag _ _⟩
  | sneReg x y => exact .inl ⟨_, rfl, .of_skipIf _⟩
  | ldI nnn => exact .inl ⟨_, rfl, .of_setI _⟩
  | jpV0 nnn => exact .inl ⟨_, rfl, .of_setPc _⟩
  | rnd x kk =>
    exact .inl ⟨_, rfl,
      .of_silent (State.setV_drawn_unchanged (by simp [writtenParts]) (by simp [writtenParts]) _) rfl rfl⟩
  | drw x y n =>
    by_cases h : s.i.toNat + rowCount n - 1 ≤ 0xFFF
    · exact .inl ⟨_, exec_drw_of_le x y n h, State.drawSprite_unchanged x y n, fun _ => State.drawSprite_mem x y n, _,
        State.trace_drawSprite x y n, fun _ => ofMeaning_of_mem_spriteEvents⟩
    · exact .inr ⟨_, rfl, exec_drw_of_gt x y n (by omega)⟩
  | skp x =>
    by_cases h : (s.getV x).toNat > 15
    · exact .inr ⟨_, rfl, exec_skp_of_gt h⟩
    · have hkey : (s.getV x).toNat = (BitVec.ofNat 4 (s.getV x).toNat).toNat := by rw [BitVec.toNat_ofNat]; omega
      exact .inl ⟨_, exec_skp_of_key hkey, .of_skipIf_asked _⟩
  | sknp x =>
    by_cases h : (s.getV x).toNat > 15
    · exact .inr ⟨_, rfl, exec_sknp_of_gt h⟩
    · have hkey : (s.getV x).toNat = (BitVec.ofNat 4 (s.getV x).toNat).toNat := by rw [BitVec.toNat_ofNat]; omega
      exact .inl ⟨_, exec_sknp_of_key hkey, .of_skipIf_asked _⟩
  | ldVxDt x => exact .inl ⟨_, rfl, .of_setV _⟩
  | ldVxK x => exact .inl ⟨_, rfl, .of_silent (State.waitKey_unchanged (by simp [writtenParts]) x) rfl rfl⟩
  | ldDtVx x => exact .inl ⟨_, rfl, .of_silent (State.setDt_unchanged (by simp [writtenParts]) _) rfl rfl⟩
  | ldStVx x =>
    have hexec : exec (.ldStVx x) s = .next (if s.getV x = 0#8 then s.setSt (s.getV x)
        else (s.setSt (s.getV x)).emit (.tone (s.getV x))) := rfl
    obtain ⟨_, hframe, htrace⟩ := execLdStVx_st_unchanged_trace (s := s) (x := x) hexec
    refine .inl ⟨_, hexec, hframe, fun _ => by split <;> rfl, if s.getV x = 0#8 then [] else [.tone (s.getV x)], ?_, ?_⟩
    · rw [htrace]; split <;> simp
    · split <;> simp [Event.OfMeaning]
  | addIVx x => exact .inl ⟨_, rfl, .of_setI _⟩
  | ldFVx x => exact .inl ⟨_, rfl, .of_setI _⟩
  | ldBVx x =>
    by_cases h : s.i.toNat + (bcdDigits (s.getV x)).length ≤ 0x1000
    · exact .inl ⟨_, State.finish_storeSpan_of_le h, .of_pokes _ _⟩
    · exact .inr ⟨_, rfl, State.finish_storeSpan_of_gt (by omega)⟩
  | ldMemVx x =>
    by_cases h : s.i.toNat + (s.regsThrough x).length ≤ 0x1000
    · exact .inl ⟨_, State.finish_storeSpan_of_le h, .of_pokes _ _⟩
    · exact .inr ⟨_, rfl, State.finish_storeSpan_of_gt (by omega)⟩
  | ldVxMem x =>
    by_cases h : s.i.toNat + (x.toNat + 1) ≤ 0x1000
    · refine .inl ⟨_, State.finish_loadSpan_of_le _ h, .of_silent (State.setRegsFrom_peeks_unchanged x _) ?_ ?_⟩
      · rw [State.setRegsFrom_eq]
      · rw [State.setRegsFrom_eq]
    · exact .inr ⟨_, rfl, State.finish_loadSpan_of_gt _ (by omega)⟩

/-- What a next state of an instruction is. -/
theorem exec_next_cases (h : exec i s = .next t) :
    Completes i s t ∨ ∃ c, mayRaise i c = true ∧ t = s.raise c := by
  obtain ⟨u, hu, hc⟩ | ⟨c, hc, hr⟩ := exec_cases i s
  · rw [hu] at h
    cases h
    exact .inl hc
  · rw [hr] at h
    cases h
    exact .inr ⟨c, hc, rfl⟩

theorem exec_total (i : Instr) (s : State) : ∃ t, exec i s = .next t := by
  obtain ⟨t, h, _⟩ | ⟨c, _, h⟩ := exec_cases i s
  · exact ⟨t, h⟩
  · exact ⟨_, h⟩

/-- A wider list of parts claims less. -/
theorem Unchanged.mono {parts parts' : List Part} (h : Unchanged parts s t) (hsub : parts ⊆ parts') :
    Unchanged parts' s t where
  regs r hr := h.regs r (mt (@hsub _) hr)
  index hp := h.index (mt (@hsub _) hp)
  pc hp := h.pc (mt (@hsub _) hp)
  stack hp := h.stack (mt (@hsub _) hp)
  dt hp := h.dt (mt (@hsub _) hp)
  st hp := h.st (mt (@hsub _) hp)
  keyWait hp := h.keyWait (mt (@hsub _) hp)
  fault hp := h.fault (mt (@hsub _) hp)
  display hp := h.display (mt (@hsub _) hp)
  memory hp := h.memory (mt (@hsub _) hp)
  trace hp := h.trace (mt (@hsub _) hp)
  draws hp := h.draws (mt (@hsub _) hp)
  answers hp := h.answers (mt (@hsub _) hp)
  cfg := h.cfg
  host := h.host
  phase := h.phase

/-- Completing or not, an instruction writes its parts and what a fault writes, and nothing else. -/
theorem exec_unchanged (h : exec i s = .next t) :
    Unchanged (.pc :: .fault :: .trace :: writtenParts i) s t := by
  obtain ⟨hframe, _, _⟩ | ⟨c, _, rfl⟩ := exec_next_cases h
  · exact hframe.mono (by intro p hp; simp [hp])
  · exact (State.raise_unchanged c).mono (by simp)

/-- Only an instruction that writes memory changes the cells of it. -/
theorem exec_mem (h : exec i s = .next t) (hmem : Part.mem ∉ writtenParts i) : t.mem = s.mem := by
  obtain ⟨_, hm, _⟩ | ⟨c, _, rfl⟩ := exec_next_cases h
  · exact hm hmem
  · rfl

/-- Framebuffers with equal pixels are equal. -/
theorem State.fb_ext (h : ∀ x y, t.pixel x y = s.pixel x y) : t.fb = s.fb := by
  apply Vector.ext
  intro y hy
  apply BitVec.eq_of_getLsbD_eq
  intro x hx
  exact h ⟨x, hx⟩ ⟨y, hy⟩

/-! ## Whose part is which -/

theorem i_mem_writtenParts (h : Part.i ∈ writtenParts i) :
    (∃ nnn, i = .ldI nnn) ∨ (∃ x, i = .addIVx x) ∨ ∃ x, i = .ldFVx x := by
  cases i <;> simp_all [writtenParts]

theorem stack_mem_writtenParts (h : Part.stack ∈ writtenParts i) : (∃ nnn, i = .call nnn) ∨ i = .ret := by
  cases i <;> simp_all [writtenParts]

theorem dt_mem_writtenParts (h : Part.dt ∈ writtenParts i) : ∃ x, i = .ldDtVx x := by
  cases i <;> simp_all [writtenParts]

theorem st_mem_writtenParts (h : Part.st ∈ writtenParts i) : ∃ x, i = .ldStVx x := by
  cases i <;> simp_all [writtenParts]

theorem keyWait_mem_writtenParts (h : Part.keyWait ∈ writtenParts i) : ∃ x, i = .ldVxK x := by
  cases i <;> simp_all [writtenParts]

theorem mem_mem_writtenParts (h : Part.mem ∈ writtenParts i) : (∃ x, i = .ldBVx x) ∨ ∃ x, i = .ldMemVx x := by
  cases i <;> simp_all [writtenParts]

theorem fb_mem_writtenParts (h : Part.fb ∈ writtenParts i) : i = .cls ∨ ∃ x y n, i = .drw x y n := by
  cases i <;> simp_all [writtenParts]

/-- No instruction that completes writes the fault record. -/
theorem fault_notMem_writtenParts : Part.fault ∉ writtenParts i := by
  cases i <;> simp [writtenParts]

/-- The registers of Fx65 are `V0` to `Vx` (R205). -/
theorem toNat_le_of_mem_registerParts {x r : Nibble} (h : Part.v r ∈ writtenParts (.ldVxMem x)) :
    r.toNat ≤ x.toNat := by
  simp only [writtenParts, List.mem_map, List.mem_range, Part.v.injEq] at h
  obtain ⟨k, hk, rfl⟩ := h
  rw [BitVec.toNat_ofNat]
  have := Nat.mod_le k (2 ^ 4)
  omega

/-! ## The statements -/

/-- Settles O12: where an instruction completes, the record is not one of its parts and no report is one of its
events. -/
theorem executeFaultsFollowTheTable : Obligations.ExecuteFaultsFollowTheTable := by
  intro i s
  obtain ⟨t, h, hframe, _, es, htrace, hes⟩ | ⟨c, hc, h⟩ := exec_cases i s
  · refine ⟨t, h, .inl ⟨hframe.fault fault_notMem_writtenParts, fun r hr => ?_⟩⟩
    rw [htrace, List.mem_append] at hr
    exact hr.resolve_right (fun hmem => hes _ hmem)
  · exact ⟨_, h, .inr ⟨c, hc, rfl⟩⟩

/-- Settles O57: a part that changes is one the instruction writes. -/
theorem eachPartHasItsWriters : Obligations.EachPartHasItsWriters := by
  intro i s t h
  have frame := exec_unchanged h
  refine ⟨fun hne => i_mem_writtenParts ?i, fun hne => stack_mem_writtenParts ?stack,
    fun hne => dt_mem_writtenParts ?dt, fun hne => st_mem_writtenParts ?st,
    fun hne => keyWait_mem_writtenParts ?keyWait, fun hne => mem_mem_writtenParts ?mem,
    fun hne => fb_mem_writtenParts ?fb, frame.cfg, frame.phase, frame.host⟩
  all_goals by_contra hp
  case i => exact hne (frame.index (by simp [hp]))
  case stack =>
    obtain ⟨hsp, hstack⟩ := frame.stack (by simp [hp])
    exact hne.elim (· hsp) (· hstack)
  case dt => exact hne (frame.dt (by simp [hp]))
  case st => exact hne (frame.st (by simp [hp]))
  case keyWait =>
    obtain ⟨hpaused, hpending⟩ := frame.keyWait (by simp [hp])
    exact hne.elim (· hpaused) (· hpending)
  case mem => exact hne (exec_mem h hp)
  case fb => exact hne (State.fb_ext (frame.display (by simp [hp])))

/-- Settles O58: a register that changes is one the instruction writes. -/
theorem generalRegisterWriters : Obligations.GeneralRegisterWriters := by
  intro i s t r h hne
  have hr : Part.v r ∈ writtenParts i := by
    by_contra hp
    exact hne ((exec_unchanged h).regs r (by simp [hp]))
  cases i with
  | ldVxMem x => simp [toNat_le_of_mem_registerParts hr]
  | _ => simp_all [writtenParts]

end Sys2Proof.Machine
end

section
/-! SUPPORT. What a fault inside a step records (R304), and with the inversion of the step the invariants that every
step keeps: the form of memory, the bounds on `PC` and the return addresses (R26), the record of a halted core (R301)
and the bound on the slots to come (R128). -/

namespace Sys2Proof.Machine

variable {i : Instr} {s t : State}

/-! ## Memory (log 6) -/

/-- An instruction stores inside memory alone, so it keeps the canonical form (R206). -/
theorem exec_keeps_memOk (hs : s.MemOk) (h : exec i s = .next t) : t.MemOk := by
  by_cases hmem : Part.mem ∈ writtenParts i
  · obtain ⟨x, rfl⟩ | ⟨x, rfl⟩ := mem_mem_writtenParts hmem
    · obtain ⟨hfit, rfl⟩ | ⟨_, rfl⟩ := execLdBVx_cases h
      · exact State.memOk_pokes hs (by rw [length_bcdDigits]; omega)
      · exact hs
    · obtain ⟨hfit, rfl⟩ | ⟨_, rfl⟩ := execLdMemVx_cases h
      · exact State.memOk_pokes hs (by rw [State.length_regsThrough]; omega)
      · exact hs
  · exact (State.memOk_congr (exec_mem h hmem) (exec_unchanged h).cfg).2 hs

theorem State.keyDown_mem (k : Nibble) : (s.keyDown k).mem = s.mem := by
  unfold State.keyDown
  split <;> rfl

theorem State.keyDown_cfg (k : Nibble) : (s.keyDown k).cfg = s.cfg := by
  unfold State.keyDown
  split <;> rfl

theorem State.frameEnd_mem : s.frameEnd.mem = s.mem := by
  unfold State.frameEnd
  split <;> simp

theorem State.frameEnd_cfg : s.frameEnd.cfg = s.cfg := by
  unfold State.frameEnd
  split <;> simp

/-- Settles O26: an instruction stores inside memory, a load that fits ends there, and no other move touches memory. -/
theorem stepKeepsMemoryForm : Obligations.StepKeepsMemoryForm := by
  intro s t hs h
  refine step_keeps (P := State.MemOk) ?host ?phase ?key ?refuse ?build ?frameEnd ?fault ?meaning hs h
  case host => exact fun s hs => hs
  case phase => exact fun s p hs => hs
  case key => exact fun s k hs => (State.memOk_congr (State.keyDown_mem k) (State.keyDown_cfg k)).2 hs
  case refuse => exact fun s hs => hs
  case build => exact fun s rom hrom _ => State.memOk_construct s hrom
  case frameEnd => exact fun s hs => (State.memOk_congr State.frameEnd_mem State.frameEnd_cfg).2 hs
  case fault => exact fun s c hs => hs
  case meaning => exact fun s i t hs _ h => exec_keeps_memOk (s := s.advance) hs h

/-! ## `PC` and the return addresses (R26) -/

/-- The bounds are about `PC` and the stack alone. -/
theorem State.pcOk_congr (hpc : t.pc = s.pc) (hsp : t.sp = s.sp) (hstack : t.stack = s.stack) :
    t.PcOk ↔ s.PcOk := by
  simp only [State.PcOk, hpc, hsp, hstack]

/-- The stack part of the bounds, with another `PC` within them. -/
theorem State.PcOk.of_pc_le (hs : s.PcOk) (hpc : t.pc.toNat ≤ 0x10FE) (hsp : t.sp = s.sp)
    (hstack : t.stack = s.stack) : t.PcOk := by
  obtain ⟨_, haddr⟩ := hs
  exact ⟨hpc, by rw [hsp, hstack]; exact haddr⟩

/-- An advanced `PC` is at most 0x1000 (R65, R123). -/
theorem State.toNat_advance_pc (h : s.pc.toNat ≤ 0xFFE) : s.advance.pc.toNat = s.pc.toNat + 2 := by
  rw [State.advance_pc, BitVec.toNat_add]
  exact Nat.mod_eq_of_lt (by simp only [BitVec.toNat_ofNat]; omega)

/-- A skip adds at most 2 (R188). -/
theorem State.toNat_skipIf_pc_le (taken : Bool) (h : s.pc.toNat ≤ 0x1000) :
    (s.skipIf taken).pc.toNat ≤ 0x1002 := by
  cases taken with
  | false => exact h.trans (by decide)
  | true =>
    have hsum : (s.pc + 2#16).toNat ≤ s.pc.toNat + 2 := by
      rw [BitVec.toNat_add]
      exact Nat.mod_le _ _
    exact hsum.trans (by omega)

theorem toNat_zextAddr_le (nnn : Addr) : (zextAddr nnn).toNat ≤ 0xFFF := by
  rw [toNat_zextAddr]
  have := nnn.isLt
  omega

/-- The largest indexed target is 0x10FE (R26, R190). -/
theorem toNat_indexedTarget_le (nnn : Addr) (b : Byte) : (indexedTarget nnn b).toNat ≤ 0x10FE := by
  rw [toNat_indexedTarget]
  have := nnn.isLt
  have := b.isLt
  omega

/-- A CALL pushes the advanced `PC`, which is within the bound of a return address. -/
theorem State.PcOk.called (hs : s.PcOk) (hpc : s.pc.toNat ≤ 0x1000) (hfree : s.sp.val < 16) (nnn : Addr) :
    (s.called hfree nnn).PcOk := by
  obtain ⟨_, haddr⟩ := hs
  refine ⟨(toNat_zextAddr_le nnn).trans (by decide), fun k hk => ?_⟩
  rw [State.getElem_stack_called]
  split
  next => exact hpc
  next hne =>
    have hdepth : (s.called hfree nnn).sp.val = s.sp.val + 1 := rfl
    exact haddr k (by omega)

/-- A RET reads a return address and leaves the others. -/
theorem State.PcOk.returned (hs : s.PcOk) (hpos : 0 < s.sp.val) : (s.returned hpos).PcOk := by
  obtain ⟨_, haddr⟩ := hs
  have htop := haddr ⟨s.sp.val - 1, by omega⟩ (Nat.sub_lt hpos Nat.one_pos)
  refine ⟨htop.trans (by decide), fun k hk => haddr k ?_⟩
  have hdepth : (s.returned hpos).sp.val = s.sp.val - 1 := rfl
  omega

/-- An instruction run from the advanced `PC` keeps the bounds: it leaves `PC` and the stack alone, jumps within the
bounds, or faults back to `pc0`. -/
theorem exec_keeps_pcOk (hs : s.PcOk) (hpc : s.pc.toNat ≤ 0xFFE) (h : exec i s.advance = .next t) : t.PcOk := by
  have hadv : s.advance.pc.toNat ≤ 0x1000 := by
    rw [State.toNat_advance_pc hpc]
    omega
  have advanced : s.advance.PcOk := hs.of_pc_le (hadv.trans (by decide)) rfl rfl
  have raised (c : FaultCause) : (s.advance.raise c).PcOk :=
    (State.pcOk_congr (s := s) (t := s.advance.raise c) (BitVec.add_sub_cancel s.pc 2#16) rfl rfl).2 hs
  have jumped (w : Word) (hw : w.toNat ≤ 0x10FE) : (s.advance.setPc w).PcOk := advanced.of_pc_le hw rfl rfl
  have skipped (u : State) (hp : u.pc = s.advance.pc) (hsp : u.sp = s.sp) (hstack : u.stack = s.stack) (taken : Bool) :
      (u.skipIf taken).PcOk :=
    advanced.of_pc_le ((State.toNat_skipIf_pc_le taken (hp ▸ hadv)).trans (by decide))
      ((u.skipIf_sp taken).trans hsp) ((u.skipIf_stack taken).trans hstack)
  have unwritten (hp : Part.pc ∉ writtenParts i) (hk : Part.stack ∉ writtenParts i) : t.PcOk := by
    obtain hc | ⟨c, _, rfl⟩ := exec_next_cases h
    · obtain ⟨hsp, hstack⟩ := hc.frame.stack hk
      exact (State.pcOk_congr (hc.frame.pc hp) hsp hstack).2 advanced
    · exact raised c
  cases i with
  | ret =>
    obtain ⟨hpos, rfl⟩ | ⟨_, rfl⟩ := execRet_cases h
    · exact advanced.returned hpos
    · exact raised _
  | call nnn =>
    obtain ⟨hfree, rfl⟩ | ⟨_, rfl⟩ := execCall_cases h
    · exact advanced.called hadv hfree nnn
    · exact raised _
  | jp nnn => cases h; exact jumped _ ((toNat_zextAddr_le nnn).trans (by decide))
  | jpV0 nnn => cases h; exact jumped _ (toNat_indexedTarget_le nnn _)
  | seByte x kk => cases h; exact skipped _ rfl rfl rfl _
  | sneByte x kk => cases h; exact skipped _ rfl rfl rfl _
  | seReg x y => cases h; exact skipped _ rfl rfl rfl _
  | sneReg x y => cases h; exact skipped _ rfl rfl rfl _
  | skp x =>
    obtain ⟨_, rfl⟩ | ⟨_, rfl⟩ := execSkp_cases h
    · exact skipped s.advance.asked rfl rfl rfl _
    · exact raised _
  | sknp x =>
    obtain ⟨_, rfl⟩ | ⟨_, rfl⟩ := execSknp_cases h
    · exact skipped s.advance.asked rfl rfl rfl _
    · exact raised _
  | _ => exact unwritten (by simp [writtenParts]) (by simp [writtenParts])

theorem State.keyDown_keeps_pcOk (k : Nibble) (hs : s.PcOk) : (s.keyDown k).PcOk := by
  unfold State.keyDown
  split <;> exact hs

theorem State.frameEnd_keeps_pcOk (hs : s.PcOk) : s.frameEnd.PcOk := by
  unfold State.frameEnd
  split
  · exact hs
  · exact (State.pcOk_congr (by simp) (by simp) (by simp)).2 hs

/-- A constructed core starts at 0x200 with an empty stack (R340). -/
theorem State.pcOk_construct (rom : List Byte) : (s.construct rom).PcOk :=
  ⟨(by decide : (0x200#16).toNat ≤ 0x10FE), fun k hk => absurd hk (Nat.not_lt_zero k.val)⟩

/-- Settles O27: the bound on return addresses makes RET keep the bound on `PC`, and the bound of a fetch makes CALL
keep the bound on return addresses. -/
theorem stepKeepsPcBounds : Obligations.StepKeepsPcBounds := by
  intro s t hs h
  refine step_keeps (P := State.PcOk) ?host ?phase ?key ?refuse ?build ?frameEnd ?fault ?meaning hs h
  case host => exact fun s hs => hs
  case phase => exact fun s p hs => hs
  case key => exact fun s k => State.keyDown_keeps_pcOk k
  case refuse => exact fun s hs => hs
  case build => exact fun s rom _ _ => State.pcOk_construct rom
  case frameEnd => exact fun s => State.frameEnd_keeps_pcOk
  case fault => exact fun s c hs => hs
  case meaning => exact fun s i t hs hpc h => exec_keeps_pcOk hs hpc h

/-! ## The record of a halted core (R301, R304) -/

/-- The record is the one just reported, for the instruction at `PC`. -/
def State.Reported (s : State) (r : FaultRecord) : Prop := r.pc = s.pc ∧ s.trace.getLast? = some (.halt r)

theorem State.reported_raiseAt {p : Word} {c : FaultCause} {r : FaultRecord} (h : (s.raiseAt p c).fault = some r) :
    (s.raiseAt p c).Reported r := by
  cases h
  exact ⟨rfl, List.getLast?_concat⟩

/-- A fault that an instruction step takes is reported (R304). -/
theorem instrStep_reported {r : FaultRecord} (hs : s.fault = none) (h : instrStep s = .next t)
    (hr : t.fault = some r) : t.Reported r := by
  obtain ⟨c, _, rfl⟩ | ⟨w, d, _, _, rfl⟩ | ⟨w, i, _, _, hexec⟩ := instrStep_cases h
  · exact State.reported_raiseAt hr
  · exact State.reported_raiseAt hr
  · obtain hc | ⟨c, _, rfl⟩ := exec_next_cases hexec
    · have hnone : t.fault = none := (hc.frame.fault fault_notMem_writtenParts).trans hs
      rw [hnone] at hr
      cases hr
    · exact State.reported_raiseAt hr

theorem State.haltOk_of_fault_none (h : s.fault = none) : s.HaltOk := by
  intro r hr
  rw [h] at hr
  cases hr

/-- The invariant is about the record, `PC`, the place in the frame and the trace alone. -/
theorem State.HaltOk.congr (hs : s.HaltOk) (hfault : t.fault = s.fault) (hpc : t.pc = s.pc)
    (hphase : t.phase = s.phase) (htrace : t.trace = s.trace) : t.HaltOk := by
  unfold State.HaltOk
  rw [hfault, hpc, hphase, htrace]
  exact hs

/-- The frame end keeps a record, or its absence. -/
theorem State.frameEnd_fault : s.frameEnd.fault = s.fault := by
  unfold State.frameEnd
  split <;> simp

/-- Inside a frame the core is not halted, and a fault that ends the frame is reported (R133). -/
theorem frameMove_keeps_haltOk (hs : s.fault = none) (h : frameMove s = .next t) : t.HaltOk := by
  obtain ⟨_, rfl⟩ | ⟨_, rfl⟩ | ⟨n, u, _, hu, rfl⟩ := frameMove_cases h
  · exact State.haltOk_of_fault_none hs
  · exact State.haltOk_of_fault_none (State.frameEnd_fault.trans hs)
  · intro r hr
    have hfault : u.fault = some r := hr
    obtain ⟨_, rfl⟩ | ⟨_, hi⟩ := slot_cases hu
    · rw [hs] at hfault
      cases hfault
    · obtain ⟨hpc, htrace⟩ := instrStep_reported hs hi hfault
      exact ⟨hpc, by simp [hfault], htrace⟩

theorem State.keyDown_keeps_haltOk (k : Nibble) (hs : s.HaltOk) : (s.keyDown k).HaltOk := by
  unfold State.keyDown
  split <;> exact hs

theorem State.haltOk_construct (rom : List Byte) : (s.construct rom).HaltOk := State.haltOk_of_fault_none rfl

/-- Settles O28: a halted core stands between frames, where the host's moves leave it as it is or construct it anew;
inside a frame the core was not halted, so its record is the one just reported. -/
theorem stepKeepsHaltRecord : Obligations.StepKeepsHaltRecord := by
  intro s t hs h
  have taken : s.hostTaken.HaltOk := hs
  obtain ⟨n, hp, hm⟩ | ⟨_, ⟨_, _, rfl⟩ | ⟨_, hf, hm⟩ | ⟨k, _, rfl⟩ | ⟨rom, _, rfl⟩ | ⟨_, rfl⟩⟩ := step_cases h
  · have hf : s.fault = none := by
      cases hr : s.fault with
      | none => rfl
      | some r =>
        obtain ⟨_, hbetween, _⟩ := hs r hr
        rw [hp] at hbetween
        cases hbetween
    exact frameMove_keeps_haltOk hf hm
  · exact taken
  · exact frameMove_keeps_haltOk (s := s.hostTaken.openFrame) hf hm
  · exact State.keyDown_keeps_haltOk k taken
  · unfold State.hostLoad
    split
    · exact State.haltOk_construct rom
    · exact taken
  · exact State.haltOk_construct []

/-! ## The slots to come (R128) -/

theorem step_cfg (h : step s = .next t) : t.cfg = s.cfg := by
  refine step_keeps (P := fun u => u.cfg = s.cfg) ?host ?phase ?key ?refuse ?build ?frameEnd ?fault ?meaning rfl h
  case host => exact fun u hu => hu
  case phase => exact fun u p hu => hu
  case key => exact fun u k hu => (State.keyDown_cfg k).trans hu
  case refuse => exact fun u hu => hu
  case build => exact fun u rom _ hu => hu
  case frameEnd => exact fun u hu => State.frameEnd_cfg.trans hu
  case fault => exact fun u c hu => hu
  case meaning => exact fun u i v hu _ hexec => (exec_unchanged hexec).cfg.trans hu

/-- Between frames no slot is to come. -/
theorem State.frameOk_of_betweenFrames (h : s.phase = .betweenFrames) : s.FrameOk := by
  intro n hn
  rw [h] at hn
  cases hn

theorem State.keyDown_phase (k : Nibble) : (s.keyDown k).phase = s.phase := by
  unfold State.keyDown
  split <;> rfl

/-- A slot counts itself, so one slot less is to come (R128). -/
theorem frameMove_keeps_frameOk (hs : s.FrameOk) (h : frameMove s = .next t) (hcfg : t.cfg = s.cfg) : t.FrameOk := by
  obtain ⟨_, rfl⟩ | ⟨_, rfl⟩ | ⟨n, u, hp, _, rfl⟩ := frameMove_cases h
  · exact hs
  · exact State.frameOk_of_betweenFrames rfl
  · intro m hm
    rw [State.afterSlot_phase] at hm
    split at hm <;> cases hm
    have hle := hs (n + 1) hp
    rw [hcfg]
    omega

/-- Settles O29: a frame opens with `SPEED` slots and every slot counts one off; no move writes the parameters. -/
theorem stepKeepsFrameBound : Obligations.StepKeepsFrameBound := by
  intro s t hs h
  have hcfg : t.cfg = s.cfg := step_cfg h
  refine ⟨?_, hcfg⟩
  obtain ⟨n, _, hm⟩ | ⟨hp, ⟨_, _, rfl⟩ | ⟨_, _, hm⟩ | ⟨k, _, rfl⟩ | ⟨rom, _, rfl⟩ | ⟨_, rfl⟩⟩ := step_cases h
  · exact frameMove_keeps_frameOk hs hm hcfg
  · exact State.frameOk_of_betweenFrames hp
  · have opened : s.hostTaken.openFrame.FrameOk := by
      intro n hn
      cases hn
      exact Nat.le_refl _
    exact frameMove_keeps_frameOk opened hm hcfg
  · exact State.frameOk_of_betweenFrames ((State.keyDown_phase k).trans hp)
  · unfold State.hostLoad
    split
    · exact State.frameOk_of_betweenFrames rfl
    · exact State.frameOk_of_betweenFrames hp
  · exact State.frameOk_of_betweenFrames rfl

/-! ## Reset (R340) -/

/-- Settles O25: after reset no byte is listed, the stack is empty, there is no fault and no frame is open. -/
theorem resetMeetsInvariants : Obligations.ResetMeetsInvariants :=
  ⟨rfl, ⟨by decide, fun k hk => absurd hk (Nat.not_lt_zero k.val)⟩, State.haltOk_of_fault_none rfl,
    State.frameOk_of_betweenFrames rfl⟩

end Sys2Proof.Machine
end

section
/-! SUPPORT. The step at each place of the frame driver and for each move of the host (R128, R132, R327), and with them
the statements on the step, the frame's end, the exits from a halt or a key wait, and load and reset
(40_execution_cycle.md, 45_input.md, 70_reset_and_hazards.md). -/

namespace Sys2Proof.Machine

variable {s t : State}

/-! ## The host's moves (R132) -/

theorem step_of_cycle (hp : s.phase = .betweenFrames) (hn : s.nextHost = .cycle) (hf : s.fault = none) :
    step s = frameMove s.hostTaken.openFrame := by
  rw [step_of_betweenFrames hp]
  simp only [hostMove, hn, hf, Option.isSome_none, Bool.false_eq_true, ↓reduceIte]

theorem step_of_cycle_halted (hp : s.phase = .betweenFrames) (hn : s.nextHost = .cycle) (hf : s.fault ≠ none) :
    step s = .next s.hostTaken := by
  have halted : s.fault.isSome = true := Option.isSome_iff_ne_none.2 hf
  rw [step_of_betweenFrames hp]
  simp only [hostMove, hn, halted, ↓reduceIte]

theorem step_of_keyDown {k : Nibble} (hp : s.phase = .betweenFrames) (hn : s.nextHost = .keyDown k) :
    step s = .next (s.hostTaken.keyDown k) := by
  rw [step_of_betweenFrames hp]
  simp only [hostMove, hn]

theorem step_of_load {rom : List Byte} (hp : s.phase = .betweenFrames) (hn : s.nextHost = .load rom) :
    step s = .next (s.hostTaken.hostLoad rom) := by
  rw [step_of_betweenFrames hp]
  simp only [hostMove, hn]

theorem step_of_reset (hp : s.phase = .betweenFrames) (hn : s.nextHost = .reset) :
    step s = .next s.hostTaken.hostReset := by
  rw [step_of_betweenFrames hp]
  simp only [hostMove, hn]

/-- A key-down to a core that waits for one (R244). -/
theorem State.keyDown_of_waiting (hf : s.fault = none) (hw : s.paused = true) (k : Nibble) :
    s.keyDown k = { s.setV s.pending (k.setWidth 8) with paused := false } := if_pos ⟨hf, hw⟩

/-- A key-down to any other core (R244). -/
theorem State.keyDown_of_not_waiting (h : ¬ (s.fault = none ∧ s.paused = true)) (k : Nibble) : s.keyDown k = s :=
  if_neg h

theorem State.hostLoad_of_le {rom : List Byte} (h : rom.length ≤ 3584) : s.hostLoad rom = s.construct rom := if_pos h

theorem State.hostLoad_of_gt {rom : List Byte} (h : 3584 < rom.length) : s.hostLoad rom = s.refuseLoad :=
  if_neg (by omega)

/-! ## Every step answers a next state -/

theorem instrStep_total (s : State) : ∃ t, instrStep s = .next t := by
  cases hf : s.fetchWord with
  | error c => exact ⟨_, instrStep_of_fetch_error hf⟩
  | ok w =>
    cases hd : decode w with
    | error d => exact ⟨_, instrStep_of_decode_error hf hd⟩
    | ok i =>
      obtain ⟨t, ht⟩ := exec_total i s.advance
      exact ⟨t, (instrStep_of_decode hf hd).trans ht⟩

theorem slot_total (s : State) : ∃ t, slot s = .next t := by
  by_cases hr : s.Running
  · obtain ⟨t, ht⟩ := instrStep_total s
    exact ⟨t, (slot_of_running hr).trans ht⟩
  · exact ⟨s, slot_of_not_running hr⟩

theorem frameMove_total (s : State) : ∃ t, frameMove s = .next t := by
  match hp : s.phase with
  | .betweenFrames => exact ⟨s, by simp only [frameMove, hp]⟩
  | .inFrame 0 => exact ⟨_, frameMove_of_zero hp⟩
  | .inFrame (n + 1) =>
    obtain ⟨t, ht⟩ := slot_total s
    exact ⟨_, (frameMove_of_succ hp).trans (by rw [ht]; rfl)⟩

theorem step_total (s : State) : ∃ t, step s = .next t := by
  cases hp : s.phase with
  | inFrame n =>
    obtain ⟨t, ht⟩ := frameMove_total s
    exact ⟨t, (step_of_inFrame hp).trans ht⟩
  | betweenFrames =>
    cases hn : s.nextHost with
    | cycle =>
      by_cases hf : s.fault = none
      · obtain ⟨t, ht⟩ := frameMove_total s.hostTaken.openFrame
        exact ⟨t, (step_of_cycle hp hn hf).trans ht⟩
      · exact ⟨_, step_of_cycle_halted hp hn hf⟩
    | keyDown k => exact ⟨_, step_of_keyDown hp hn⟩
    | load rom => exact ⟨_, step_of_load hp hn⟩
    | reset => exact ⟨_, step_of_reset hp hn⟩

/-! ## A slot and the frame's end -/

/-- A core that is not running passes a slot, and a frame's end, with its record and its key wait (R129, R133). -/
theorem frameMove_of_not_running (hr : ¬ s.Running) (h : frameMove s = .next t) :
    t.fault = s.fault ∧ t.paused = s.paused := by
  obtain ⟨_, rfl⟩ | ⟨_, rfl⟩ | ⟨n, u, _, hu, rfl⟩ := frameMove_cases h
  · exact ⟨rfl, rfl⟩
  · refine ⟨State.frameEnd_fault, ?_⟩
    unfold State.frameEnd
    split <;> simp
  · rw [slot_of_not_running hr] at hu
    cases hu
    exact ⟨rfl, rfl⟩

/-- The timers after an instruction step are as before unless an Fx15 or an Fx18 ran. -/
theorem instrStep_timers (h : instrStep s = .next t) :
    (t.dt ≠ s.dt → ∃ w x, s.fetchWord = .ok w ∧ decode w = .ok (.ldDtVx x)) ∧
    (t.st ≠ s.st → ∃ w x, s.fetchWord = .ok w ∧ decode w = .ok (.ldStVx x)) := by
  obtain ⟨c, _, rfl⟩ | ⟨w, d, _, _, rfl⟩ | ⟨w, i, hw, hd, hexec⟩ := instrStep_cases h
  · exact ⟨absurd rfl, absurd rfl⟩
  · exact ⟨absurd rfl, absurd rfl⟩
  · obtain ⟨_, _, hdt, hst, _⟩ := eachPartHasItsWriters i s.advance t hexec
    constructor
    · intro hne
      obtain ⟨x, rfl⟩ := hdt hne
      exact ⟨w, x, hw, hd⟩
    · intro hne
      obtain ⟨x, rfl⟩ := hst hne
      exact ⟨w, x, hw, hd⟩

/-- An instruction step of a running core enters the key wait exactly by an Fx0A (R120, R243). -/
theorem instrStep_control_waitKey (hr : s.Running) (h : instrStep s = .next t) :
    t.control = .waitKey ↔ ∃ w x, s.fetchWord = .ok w ∧ decode w = .ok (.ldVxK x) := by
  obtain ⟨hfault, hpaused⟩ := hr
  rw [State.control_waitKey]
  obtain ⟨c, hw, rfl⟩ | ⟨w, d, hw, hd, rfl⟩ | ⟨w, i, hw, hd, hexec⟩ := instrStep_cases h
  · simp [hw]
  · simp [hw, hd]
  · constructor
    · rintro ⟨_, hwait⟩
      obtain ⟨_, _, _, _, hkey, _⟩ := eachPartHasItsWriters i s.advance t hexec
      have hne : t.paused ≠ s.advance.paused := by
        rw [hwait, State.advance_paused, hpaused]
        decide
      obtain ⟨x, rfl⟩ := hkey (.inl hne)
      exact ⟨w, x, hw, hd⟩
    · rintro ⟨w', x, hw', hd'⟩
      cases hw.symm.trans hw'
      cases hd.symm.trans hd'
      cases hexec
      exact ⟨hfault, rfl⟩

/-! ## The frame's end (R130, R131) -/

theorem State.timerStep_of_held (h : s.paused = true ∧ s.cfg.pauseHoldsTimers = true) : s.timerStep = s :=
  if_neg (by simp [h])

theorem State.timerStep_of_not_held (h : ¬ (s.paused = true ∧ s.cfg.pauseHoldsTimers = true)) :
    s.timerStep = s.timerTick :=
  if_pos (by
    simp only [not_and_or, Bool.not_eq_true] at h
    exact h)

/-- The timers after the timer step, one less where they tick (R130, R310). -/
theorem State.timers_timerStep (s : State) :
    if s.paused = true ∧ s.cfg.pauseHoldsTimers = true then s.timerStep.dt = s.dt ∧ s.timerStep.st = s.st
    else s.timerStep.dt.toNat = s.dt.toNat - 1 ∧ s.timerStep.st.toNat = s.st.toNat - 1 := by
  by_cases hold : s.paused = true ∧ s.cfg.pauseHoldsTimers = true
  · rw [if_pos hold, State.timerStep_of_held hold]
    exact ⟨rfl, rfl⟩
  · rw [if_neg hold, State.timerStep_of_not_held hold]
    exact ⟨toNat_tickDown s.dt, toNat_tickDown s.st⟩

/-- The timer step and an event change the timers and the trace alone. -/
theorem State.timerStep_emit_unchanged {parts : List Part} (hdt : Part.dt ∈ parts) (hst : Part.st ∈ parts)
    (htrace : Part.trace ∈ parts) (e : Event) : Unchanged parts s (s.timerStep.emit e) := by
  by_cases hold : s.paused = true ∧ s.cfg.pauseHoldsTimers = true
  · rw [State.timerStep_of_held hold]
    exact unchanged_of_eq_with_dt_st_trace rfl (absurd hdt) (absurd hst) (absurd htrace)
  · rw [State.timerStep_of_not_held hold]
    exact unchanged_of_eq_with_dt_st_trace rfl (absurd hdt) (absurd hst) (absurd htrace)

/-! ## The statements -/

/-- Settles O6: a slot of a running core is the instruction step, and a `Cycle` call is the first move of the frame it
opens. -/
theorem stepRunsDecodedInstruction : Obligations.StepRunsDecodedInstruction := by
  constructor
  · intro s n w i hp hr hw hd
    refine ⟨?_, State.toNat_advance_pc (State.pc_le_of_fetchWord hw), State.setPc_unchanged (by simp) _⟩
    rw [step_of_running hp hr, instrStep_of_decode hw hd]
  · intro s hp hn hf
    refine ⟨?_, rfl, Unchanged.refl⟩
    have hopen : s.hostTaken.openFrame.phase = .inFrame s.cfg.speed := rfl
    rw [step_of_cycle hp hn hf, step_of_inFrame hopen]

/-- Settles O8: the step takes the DECODE fault at `PC` and does nothing else. -/
theorem decodeFailureIsAFault : Obligations.DecodeFailureIsAFault := by
  intro s n w d hp hr hw hd
  obtain ⟨hreport, _⟩ := (illegalWordsAreExactlyThese w d).1 hd
  have frame : Unchanged [.fault, .trace] s (s.raiseAt s.pc (.decode d w)) :=
    State.raiseAt_unchanged _ (fun _ => rfl) (by simp) (by simp)
  refine ⟨_, _, ?_, rfl, congrArg (FaultCause.decode · w) hreport, frame.afterSlot n⟩
  rw [step_of_running hp hr, instrStep_of_decode_error hw hd, mapNext_next]

/-- Settles O9: every layer of the step answers a next state, and only an Fx0A sets `paused`. -/
theorem outcomesOfAStep : Obligations.OutcomesOfAStep := by
  refine ⟨fun s hr => ?_, step_total⟩
  obtain ⟨t, ht⟩ := instrStep_total s
  refine ⟨t, ht, ?_, instrStep_control_waitKey hr ht⟩
  cases t.control <;> simp

/-- Settles O10: a slot of a core that is not running changes nothing, and it is counted. -/
theorem pausedSlotsAreIdle : Obligations.PausedSlotsAreIdle := by
  intro s n hp hf hw
  have idle : ¬ s.Running := fun ⟨_, hrun⟩ => by simp [hw] at hrun
  rw [step_of_inFrame hp, frameMove_of_succ hp, slot_of_not_running idle, mapNext_next]
  simp [State.afterSlot, hf]

/-- Settles O13: `Cycle` of a halted core does nothing, and a key-down completes no wait of one. -/
theorem haltedCoreIsInert : Obligations.HaltedCoreIsInert := by
  rintro s hf hp (hn | ⟨k, hn⟩)
  · exact step_of_cycle_halted hp hn hf
  · have idle : ¬ (s.hostTaken.fault = none ∧ s.hostTaken.paused = true) := fun ⟨hnone, _⟩ => hf hnone
    rw [step_of_keyDown hp hn, State.keyDown_of_not_waiting idle]

/-- Settles O14: a running core has nothing to end; for another one a frame passes with its record and its wait, so
only the host's moves are left. -/
theorem onlyTheseEventsEndAHaltOrAWait : Obligations.OnlyTheseEventsEndAHaltOrAWait := by
  intro s t h
  by_cases hr : s.Running
  · obtain ⟨hf, hw⟩ := hr
    exact ⟨fun hne => absurd hf hne, fun hpaused => absurd (hpaused.symm.trans hw) (by decide)⟩
  by_cases same : t.fault = s.fault ∧ t.paused = s.paused
  · obtain ⟨hf, hw⟩ := same
    exact ⟨fun hne hnone => absurd (hf.symm.trans hnone) hne,
      fun hpaused hrun => absurd (hpaused.symm.trans (hw.symm.trans hrun)) (by decide)⟩
  obtain ⟨n, _, hm⟩ | ⟨hp, ⟨_, _, rfl⟩ | ⟨_, _, hm⟩ | ⟨k, hn, rfl⟩ | ⟨rom, hn, rfl⟩ | ⟨hn, rfl⟩⟩ := step_cases h
  · exact absurd (frameMove_of_not_running hr hm) same
  · exact absurd ⟨rfl, rfl⟩ same
  · exact absurd (frameMove_of_not_running (s := s.hostTaken.openFrame) hr hm) same
  · by_cases hw : s.fault = none ∧ s.paused = true
    · obtain ⟨hf, _⟩ := hw
      exact ⟨fun hne => absurd hf hne, fun _ _ => ⟨hp, .inr (.inr ⟨k, hn, hf⟩)⟩⟩
    · rw [State.keyDown_of_not_waiting (s := s.hostTaken) hw] at same
      exact absurd ⟨rfl, rfl⟩ same
  · by_cases hrom : rom.length ≤ 3584
    · exact ⟨fun _ _ => ⟨hp, .inr ⟨rom, hn, hrom⟩⟩, fun _ _ => ⟨hp, .inr (.inl ⟨rom, hn, hrom⟩)⟩⟩
    · rw [State.hostLoad_of_gt (by omega)] at same
      exact absurd ⟨rfl, rfl⟩ same
  · exact ⟨fun _ _ => ⟨hp, .inl hn⟩, fun _ _ => ⟨hp, .inl hn⟩⟩

/-- Settles O17: the frame's end ticks by the parameter and emits one `Paint`. -/
theorem timerStepOfAFrame : Obligations.TimerStepOfAFrame := by
  intro s hp hf
  have hend : s.frameEnd = s.timerStep.emit .paint := by simp [State.frameEnd, hf]
  have hstep : step s = .next { s.timerStep.emit .paint with phase := .betweenFrames } := by
    rw [step_of_inFrame hp, frameMove_of_zero hp, hend]
  have frame : Unchanged [.dt, .st, .trace] s (s.timerStep.emit .paint) :=
    State.timerStep_emit_unchanged (by simp) (by simp) (by simp) .paint
  exact ⟨_, hstep, rfl, by simp, { frame with phase := rfl }, s.timers_timerStep⟩

/-- Settles O19: a slot is an instruction step or nothing. -/
theorem timersStandStillInSlots : Obligations.TimersStandStillInSlots := by
  intro s t n hp h
  rw [step_of_inFrame hp, frameMove_of_succ hp] at h
  obtain ⟨u, hu, rfl⟩ := mapNext_eq_next h
  obtain ⟨_, rfl⟩ | ⟨_, hi⟩ := slot_cases hu
  · exact ⟨absurd rfl, absurd rfl⟩
  · exact instrStep_timers (t := u) hi

/-- Settles O20: a key-down that completes a wait is one write of the pending register and the end of the wait. -/
theorem keyDownCompletesTheWait : Obligations.KeyDownCompletesTheWait := by
  intro s k hp hn
  have hstep := step_of_keyDown hp hn
  constructor
  · intro hf hw
    rw [State.keyDown_of_waiting (s := s.hostTaken) hf hw] at hstep
    refine ⟨_, hstep, ?key, rfl, rfl, ?frame⟩
    case key =>
      have hkey : (s.setV s.pending (k.setWidth 8)).getV s.pending = k.setWidth 8 := State.getV_setV_self _ _
      exact (congrArg BitVec.toNat hkey).trans (BitVec.toNat_setWidth_of_le (by decide))
    case frame =>
      have written : Unchanged [.v s.pending, .keyWait] s (s.setV s.pending (k.setWidth 8)) :=
        State.setV_unchanged (by simp) _
      exact { written with keyWait := absurd (by simp) }
  · intro h
    have idle : ¬ (s.fault = none ∧ s.paused = true) := fun ⟨hf, hw⟩ => by simp [hf, hw] at h
    rw [hstep, State.keyDown_of_not_waiting (s := s.hostTaken) idle]

/-- What construction gives with a ROM that fits (R340, R341). -/
theorem State.construct_constructs_anew {rom : List Byte} (h : rom.length ≤ 3584) :
    (s.construct rom).MemOk ∧
    (∀ k (hk : k < rom.length), (s.construct rom).peek (0x200 + k) = rom[k]) ∧
    (∀ a (ha : a < 80), (s.construct rom).peek a = s.cfg.font[a]) ∧
    (∀ a, 80 ≤ a → (a < 0x200 ∨ 0x200 + rom.length ≤ a) → (s.construct rom).peek a = 0#8) := by
  refine ⟨State.memOk_construct s h, fun k hk => State.peek_construct_rom s h hk, fun a ha => ?font,
    fun a ha hout => ?zero⟩
  case font => rw [State.peek_construct s h (.inl (by omega)), State.initAt, initByte, dif_pos ha]
  case zero => rw [State.peek_construct s h hout, State.initAt, initByte, dif_neg (by omega)]

/-- Settles O22: a load that fits and a reset are construction, any other load is the refusal alone. -/
theorem loadAndResetConstructAnew : Obligations.LoadAndResetConstructAnew := by
  intro s rom hp hn
  have hstep : step s = .next (s.hostTaken.hostLoad rom) := by
    obtain hn | ⟨hn, rfl⟩ := hn
    · exact step_of_load hp hn
    · exact step_of_reset hp hn
  constructor
  · intro hgt
    rw [hstep, State.hostLoad_of_gt hgt]
    rfl
  · intro hle
    rw [State.hostLoad_of_le hle] at hstep
    exact ⟨_, hstep, rfl, State.construct_constructs_anew (s := s.hostTaken) hle⟩

end Sys2Proof.Machine
end

section
/-! SUPPORT. What the instructions do not read: the trace (R39), the place in the frame, and, but for CALL and RET, the
stack (R28). From it the statements on the trace and on the unused stack slots. -/

namespace Sys2Proof.Machine

variable {i : Instr} {s s' t : State} {p q : Prop}

/-! ## States with another stack, trace and place in the frame -/

/-- `s` with another stack array, trace and place in the frame. -/
def State.overlay (s : State) (k : Vector Word 16) (tr : List Event) (ph : Phase) : State :=
  { s with stack := k, trace := tr, phase := ph }

section
variable (s) (k : Vector Word 16) (tr : List Event) (ph : Phase)

theorem State.overlay_skipIf (taken : Bool) :
    (s.overlay k tr ph).skipIf taken = (s.skipIf taken).overlay k tr ph := by
  cases taken <;> rfl

theorem State.overlay_timerStep : (s.overlay k tr ph).timerStep = s.timerStep.overlay k tr ph := by
  by_cases hold : s.paused = true ∧ s.cfg.pauseHoldsTimers = true
  · rw [State.timerStep_of_held hold, State.timerStep_of_held (s := s.overlay k tr ph) hold]
  · rw [State.timerStep_of_not_held hold, State.timerStep_of_not_held (s := s.overlay k tr ph) hold]
    rfl

theorem State.overlay_writeResultAndFlag (x : Nibble) (r f : Byte) :
    (s.overlay k tr ph).writeResultAndFlag x r f = (s.writeResultAndFlag x r f).overlay k tr ph := by
  have hcfg : (s.overlay k tr ph).cfg = s.cfg := rfl
  unfold State.writeResultAndFlag
  rw [hcfg]
  cases s.cfg.vfDestOrder <;> rfl

theorem State.overlay_pokes (a : Nat) (bs : List Byte) :
    (s.overlay k tr ph).pokes a bs = (s.pokes a bs).overlay k tr ph := by
  induction bs generalizing s a with
  | nil => rfl
  | cons b bs ih => exact ih (s.poke a b) (a + 1)

theorem State.overlay_setRegsFrom (n : Nat) (bs : List Byte) :
    (s.overlay k tr ph).setRegsFrom n bs = (s.setRegsFrom n bs).overlay k tr ph := by
  induction bs generalizing s n with
  | nil => rfl
  | cons b bs ih => exact ih (s.setV (BitVec.ofNat 4 n) b) (n + 1)

theorem State.overlay_peeks (a n : Nat) : (s.overlay k tr ph).peeks a n = s.peeks a n :=
  State.peeks_congr fun _ _ => rfl

theorem State.overlay_drawPixels (ps : List (Fin 64 × Fin 32)) :
    (s.overlay k tr ph).drawPixels ps =
      (s.drawPixels ps).overlay k (tr ++ ps.map fun p => .setPixel p.1 p.2) ph := by
  induction ps generalizing s tr with
  | nil => simp only [State.drawPixels, List.map_nil, List.append_nil]
  | cons p ps ih =>
    have hpixel : (s.overlay k tr ph).pixel p.1 p.2 = s.pixel p.1 p.2 := rfl
    have happend (es : List Event) : tr ++ .setPixel p.1 p.2 :: es = tr ++ [.setPixel p.1 p.2] ++ es := by simp
    rw [State.drawPixels_cons, State.drawPixels_cons, hpixel, List.map_cons, happend]
    by_cases hs : s.pixel p.1 p.2 = true
    · rw [if_pos hs, if_pos hs]
      exact ih ((s.togglePixel p.1 p.2).setV vf 1#8) _
    · rw [if_neg hs, if_neg hs]
      exact ih (s.togglePixel p.1 p.2) _

theorem State.overlay_storeSpan (a : Nat) (bs : List Byte) :
    (s.overlay k tr ph).storeSpan a bs = (s.storeSpan a bs).map fun t => t.overlay k tr ph := by
  rw [State.storeSpan_eq, State.storeSpan_eq, State.overlay_pokes]
  split <;> rfl

theorem State.overlay_loadSpan (a n : Nat) : (s.overlay k tr ph).loadSpan a n = s.loadSpan a n := by
  rw [State.loadSpan_eq, State.loadSpan_eq, State.overlay_peeks]

/-- The skips on a key, whatever the answer to it is. -/
theorem State.overlay_map_skipIf_asked (key : Except FaultCause Nibble) (taken : Nibble → Bool) :
    (key.map fun n => (s.overlay k tr ph).asked.skipIf (taken n)) =
      (key.map fun n => s.asked.skipIf (taken n)).map fun t => t.overlay k tr ph := by
  cases key with
  | error c => rfl
  | ok n => exact congrArg Except.ok (s.asked.overlay_skipIf k tr ph (taken n))

/-- The registers loaded from a span, whatever it holds. -/
theorem State.overlay_map_setRegsFrom (span : Except FaultCause (List Byte)) :
    (span.map fun bs => (s.overlay k tr ph).setRegsFrom 0 bs) =
      (span.map fun bs => s.setRegsFrom 0 bs).map fun t => t.overlay k tr ph := by
  cases span with
  | error c => rfl
  | ok bs => exact congrArg Except.ok (s.overlay_setRegsFrom k tr ph 0 bs)

end

/-- What the instruction does from `s` does not depend on the stack, the trace and the place in the frame: it leaves the
stack and the place, and adds the same events to whatever the trace is. -/
def OverlayBlind (i : Instr) (s : State) : Prop :=
  ∃ (t : State) (es : List Event), ∀ k tr ph, exec i (s.overlay k tr ph) = .next (t.overlay k (tr ++ es) ph)

/-- An instruction that emits nothing. -/
theorem OverlayBlind.of_silent {f : State → State} (hexec : ∀ u, exec i u = .next (f u))
    (hf : ∀ k tr ph, f (s.overlay k tr ph) = (f s).overlay k tr ph) : OverlayBlind i s :=
  ⟨f s, [], fun k tr ph => by rw [hexec, hf, List.append_nil]⟩

/-- An instruction that faults. -/
theorem OverlayBlind.of_raise (c : FaultCause)
    (hexec : ∀ k tr ph, exec i (s.overlay k tr ph) = .next ((s.overlay k tr ph).raise c)) : OverlayBlind i s :=
  ⟨s.raise c, [.halt ⟨c, s.pc - 2#16⟩], hexec⟩

/-- An instruction that emits nothing, or faults. -/
theorem OverlayBlind.of_finish {f : State → Except FaultCause State} (hexec : ∀ u, exec i u = u.finish (f u))
    (hf : ∀ k tr ph, f (s.overlay k tr ph) = (f s).map fun t => t.overlay k tr ph) : OverlayBlind i s := by
  cases hs : f s with
  | ok t =>
    refine ⟨t, [], fun k tr ph => ?_⟩
    rw [hexec, hf, hs, List.append_nil]
    rfl
  | error c =>
    refine .of_raise c fun k tr ph => ?_
    rw [hexec, hf, hs]
    rfl

/-- DRW reads `I`, two registers and the sprite's bytes, and emits the toggles of the sprite (R221, R222). -/
theorem drw_overlayBlind (x y n : Nibble) : OverlayBlind (.drw x y n) s := by
  by_cases h : s.i.toNat + rowCount n - 1 ≤ 0xFFF
  · refine ⟨s.drawSprite x y n, (s.sprite x y n).map fun p => .setPixel p.1 p.2, fun k tr ph =>
      (exec_drw_of_le (s := s.overlay k tr ph) x y n h).trans ?_⟩
    have hsprite : (s.overlay k tr ph).sprite x y n = s.sprite x y n :=
      congrArg (spritePixels _ _) (s.overlay_peeks k tr ph _ _)
    rw [State.drawSprite, hsprite]
    exact congrArg Host.Outcome.next ((s.setV vf 0#8).overlay_drawPixels k tr ph (s.sprite x y n))
  · have hgt : s.i.toNat + rowCount n - 1 > 0xFFF := by omega
    exact .of_raise (.memReadRange (max s.i.toNat 0x1000)) fun k tr ph =>
      exec_drw_of_gt (s := s.overlay k tr ph) x y n hgt

/-- CALL and RET apart, no instruction reads the stack, and none reads the trace or the place in the frame. -/
theorem exec_overlayBlind (i : Instr) (s : State) (hi : Part.stack ∉ writtenParts i) : OverlayBlind i s := by
  cases i with
  | sys nnn =>
    cases hp : s.cfg.sysPolicy with
    | nop =>
      exact ⟨s, [], fun k tr ph => by rw [exec_sys_of_nop (s := s.overlay k tr ph) hp, List.append_nil]⟩
    | fault =>
      exact .of_raise (.sysUnsupported nnn) fun k tr ph => exec_sys_of_fault (s := s.overlay k tr ph) hp nnn
  | cls => exact ⟨s.clearDisplay, [.clear], fun k tr ph => rfl⟩
  | ret => exact absurd (by simp [writtenParts]) hi
  | jp nnn => exact .of_silent (fun _ => rfl) fun _ _ _ => rfl
  | call nnn => exact absurd (by simp [writtenParts]) hi
  | seByte x kk => exact .of_silent (fun _ => rfl) fun k tr ph => s.overlay_skipIf k tr ph _
  | sneByte x kk => exact .of_silent (fun _ => rfl) fun k tr ph => s.overlay_skipIf k tr ph _
  | seReg x y => exact .of_silent (fun _ => rfl) fun k tr ph => s.overlay_skipIf k tr ph _
  | sneReg x y => exact .of_silent (fun _ => rfl) fun k tr ph => s.overlay_skipIf k tr ph _
  | addReg x y => exact .of_silent (fun _ => rfl) fun k tr ph => s.overlay_writeResultAndFlag k tr ph x _ _
  | subReg x y => exact .of_silent (fun _ => rfl) fun k tr ph => s.overlay_writeResultAndFlag k tr ph x _ _
  | shrReg x y => exact .of_silent (fun _ => rfl) fun k tr ph => s.overlay_writeResultAndFlag k tr ph x _ _
  | subnReg x y => exact .of_silent (fun _ => rfl) fun k tr ph => s.overlay_writeResultAndFlag k tr ph x _ _
  | shlReg x y => exact .of_silent (fun _ => rfl) fun k tr ph => s.overlay_writeResultAndFlag k tr ph x _ _
  | drw x y n => exact drw_overlayBlind x y n
  | skp x => exact .of_finish (fun _ => rfl) fun k tr ph => s.overlay_map_skipIf_asked k tr ph _ _
  | sknp x => exact .of_finish (fun _ => rfl) fun k tr ph => s.overlay_map_skipIf_asked k tr ph _ _
  | ldStVx x =>
    by_cases h : s.getV x = 0#8
    · refine ⟨s.setSt (s.getV x), [], fun k tr ph => ?_⟩
      rw [List.append_nil]
      exact congrArg Host.Outcome.next (if_pos h)
    · exact ⟨(s.setSt (s.getV x)).emit (.tone (s.getV x)), [.tone (s.getV x)],
        fun k tr ph => congrArg Host.Outcome.next (if_neg h)⟩
  | ldBVx x => exact .of_finish (fun _ => rfl) fun k tr ph => s.overlay_storeSpan k tr ph _ _
  | ldMemVx x => exact .of_finish (fun _ => rfl) fun k tr ph => s.overlay_storeSpan k tr ph _ _
  | ldVxMem x =>
    refine .of_finish (fun _ => rfl) fun k tr ph => ?_
    rw [← State.overlay_map_setRegsFrom, ← s.overlay_loadSpan k tr ph]
    rfl
  | _ => exact .of_silent (fun _ => rfl) fun _ _ _ => rfl

/-! ## States alike but for the trace and the unused stack slots (R28, R39) -/

/-- `s'` differs from `s` at most in the trace and in stack slots at and above `SP`; not in the stack where `p` holds,
and not in the trace where `q` holds. -/
def Alike (p q : Prop) (s s' : State) : Prop :=
  ∃ k tr, s' = s.overlay k tr s.phase ∧ (∀ j : Fin 16, j.val < s.sp.val → k[j.val] = s.stack[j.val]) ∧
    (p → k = s.stack) ∧ (q → tr = s.trace)

section
variable (h : Alike p q s s')
include h

/-! ### Updates of alike states -/

theorem Alike.raiseAt (pc0 : Word) (c : FaultCause) : Alike p q (s.raiseAt pc0 c) (s'.raiseAt pc0 c) := by
  obtain ⟨k, tr, rfl, hlive, hp, hq⟩ := h
  exact ⟨k, tr ++ [.halt ⟨c, pc0⟩], rfl, hlive, hp, fun hq' => by rw [hq hq', State.raiseAt_trace]⟩

theorem Alike.advance : Alike p q s.advance s'.advance := by
  obtain ⟨k, tr, rfl, hlive, hp, hq⟩ := h
  exact ⟨k, tr, rfl, hlive, hp, hq⟩

theorem Alike.afterSlot (n : Nat) : Alike p q (s.afterSlot n) (s'.afterSlot n) := by
  obtain ⟨k, tr, rfl, hlive, hp, hq⟩ := h
  exact ⟨k, tr, rfl, hlive, hp, hq⟩

theorem Alike.openFrame : Alike p q s.openFrame s'.openFrame := by
  obtain ⟨k, tr, rfl, hlive, hp, hq⟩ := h
  exact ⟨k, tr, rfl, hlive, hp, hq⟩

theorem Alike.hostTaken : Alike p q s.hostTaken s'.hostTaken := by
  obtain ⟨k, tr, rfl, hlive, hp, hq⟩ := h
  exact ⟨k, tr, rfl, hlive, hp, hq⟩

theorem Alike.endOfFrame :
    Alike p q { s.frameEnd with phase := .betweenFrames } { s'.frameEnd with phase := .betweenFrames } := by
  obtain ⟨k, tr, rfl, hlive, hp, hq⟩ := h
  unfold State.frameEnd
  have hfault : (s.overlay k tr s.phase).fault = s.fault := rfl
  rw [hfault, State.overlay_timerStep]
  split
  · exact ⟨k, tr, rfl, hlive, hp, hq⟩
  · exact ⟨k, tr ++ [.paint], rfl, by simpa using hlive, by simpa using hp, by simpa using hq⟩

theorem Alike.keyDown (key : Nibble) : Alike p q (s.keyDown key) (s'.keyDown key) := by
  obtain ⟨k, tr, rfl, hlive, hp, hq⟩ := h
  by_cases hw : s.fault = none ∧ s.paused = true
  · obtain ⟨hfault, hpaused⟩ := hw
    rw [State.keyDown_of_waiting hfault hpaused, State.keyDown_of_waiting (s := s.overlay k tr s.phase) hfault hpaused]
    exact ⟨k, tr, rfl, hlive, hp, hq⟩
  · rw [State.keyDown_of_not_waiting hw, State.keyDown_of_not_waiting (s := s.overlay k tr s.phase) hw]
    exact ⟨k, tr, rfl, hlive, hp, hq⟩

theorem Alike.construct (rom : List Byte) : Alike p q (s.construct rom) (s'.construct rom) := by
  obtain ⟨k, tr, rfl, _⟩ := h
  exact ⟨_, _, rfl, fun _ _ => rfl, fun _ => rfl, fun _ => rfl⟩

theorem Alike.hostLoad (rom : List Byte) : Alike p q (s.hostLoad rom) (s'.hostLoad rom) := by
  by_cases hrom : rom.length ≤ 3584
  · rw [State.hostLoad_of_le hrom, State.hostLoad_of_le hrom]
    exact h.construct rom
  · obtain ⟨k, tr, rfl, hlive, hp, hq⟩ := h
    rw [State.hostLoad_of_gt (by omega), State.hostLoad_of_gt (by omega)]
    exact ⟨k, tr, rfl, hlive, hp, hq⟩

/-! ### Steps of alike states -/

/-- CALL writes the first unused slot and nothing of what it reads is unused (R182). -/
theorem Alike.exec_call {nnn : Addr} (hexec : exec (.call nnn) s = .next t) :
    ∃ t', exec (.call nnn) s' = .next t' ∧ Alike p q t t' := by
  by_cases hfree : s.sp.val < 16
  · obtain ⟨k, tr, rfl, hlive, hp, hq⟩ := h
    rw [exec_call_of_lt hfree] at hexec
    cases hexec
    refine ⟨_, exec_call_of_lt (s := s.overlay k tr s.phase) hfree nnn, k.set s.sp.val s.pc hfree, tr, rfl, ?_, ?_, hq⟩
    · intro j hj
      rw [State.getElem_stack_called, Vector.getElem_set]
      by_cases hjsp : j.val = s.sp.val
      · rw [if_pos hjsp.symm, if_pos hjsp]
      · have hdepth : (s.called hfree nnn).sp.val = s.sp.val + 1 := rfl
        rw [if_neg (Ne.symm hjsp), if_neg hjsp]
        exact hlive j (by omega)
    · intro hp'
      rw [hp hp']
      rfl
  · have hfull : s.sp.val = 16 := by omega
    rw [exec_call_of_full hfull] at hexec
    cases hexec
    have raised := h.raiseAt s.pc0 (.stackOverflow (s.pc - 2#16))
    obtain ⟨k, tr, rfl, _⟩ := h
    exact ⟨_, exec_call_of_full (s := s.overlay k tr s.phase) hfull nnn, raised⟩

/-- RET reads the last used slot (R181). -/
theorem Alike.exec_ret (hexec : exec .ret s = .next t) : ∃ t', exec .ret s' = .next t' ∧ Alike p q t t' := by
  by_cases hpos : 0 < s.sp.val
  · obtain ⟨k, tr, rfl, hlive, hp, hq⟩ := h
    rw [exec_ret_of_pos hpos] at hexec
    cases hexec
    have htop : k[s.sp.val - 1] = s.stack[s.sp.val - 1] := hlive ⟨s.sp.val - 1, by omega⟩ (by simp only; omega)
    refine ⟨_, exec_ret_of_pos (s := s.overlay k tr s.phase) hpos, k, tr, ?_, fun j hj => hlive j ?_, hp, hq⟩
    · simp only [State.returned, State.overlay, htop]
    · have hdepth : (s.returned hpos).sp.val = s.sp.val - 1 := rfl
      omega
  · have hempty : s.sp.val = 0 := by omega
    rw [exec_ret_of_empty hempty] at hexec
    cases hexec
    have raised := h.raiseAt s.pc0 (.stackUnderflow (s.pc - 2#16))
    obtain ⟨k, tr, rfl, _⟩ := h
    exact ⟨_, exec_ret_of_empty (s := s.overlay k tr s.phase) hempty, raised⟩

theorem Alike.exec (hexec : exec i s = .next t) : ∃ t', Machine.exec i s' = .next t' ∧ Alike p q t t' := by
  by_cases hi : Part.stack ∈ writtenParts i
  · obtain ⟨nnn, rfl⟩ | rfl := stack_mem_writtenParts hi
    · exact h.exec_call hexec
    · exact h.exec_ret hexec
  · obtain ⟨k, tr, rfl, hlive, hp, hq⟩ := h
    obtain ⟨u, es, hu⟩ := exec_overlayBlind i s hi
    have hsp : t.sp = s.sp := ((exec_unchanged hexec).stack (by simp [hi])).1
    cases hexec.symm.trans (hu s.stack s.trace s.phase)
    refine ⟨_, hu k tr s.phase, k, tr ++ es, rfl, fun j hj => hlive j (hsp ▸ hj), hp, fun hq' => ?_⟩
    rw [hq hq']
    rfl

theorem Alike.instrStep (hstep : instrStep s = .next t) :
    ∃ t', Machine.instrStep s' = .next t' ∧ Alike p q t t' := by
  have hfetch : s'.fetchWord = s.fetchWord := by
    obtain ⟨k, tr, rfl, _⟩ := h
    rfl
  have hpc : s'.pc = s.pc := by
    obtain ⟨k, tr, rfl, _⟩ := h
    rfl
  obtain ⟨c, hw, rfl⟩ | ⟨w, d, hw, hd, rfl⟩ | ⟨w, i, hw, hd, hexec⟩ := instrStep_cases hstep
  · exact ⟨_, instrStep_of_fetch_error (hfetch.trans hw), hpc ▸ h.raiseAt _ c⟩
  · exact ⟨_, instrStep_of_decode_error (hfetch.trans hw) hd, hpc ▸ h.raiseAt _ _⟩
  · rw [instrStep_of_decode (hfetch.trans hw) hd]
    exact h.advance.exec hexec

theorem Alike.running : s'.Running ↔ s.Running := by
  obtain ⟨k, tr, rfl, _⟩ := h
  rfl

theorem Alike.slot (hslot : slot s = .next t) : ∃ t', Machine.slot s' = .next t' ∧ Alike p q t t' := by
  obtain ⟨hr, rfl⟩ | ⟨hr, hi⟩ := slot_cases hslot
  · exact ⟨s', slot_of_not_running (mt h.running.1 hr), h⟩
  · rw [slot_of_running (h.running.2 hr)]
    exact h.instrStep hi

theorem Alike.phase : s'.phase = s.phase := by
  obtain ⟨k, tr, rfl, _⟩ := h
  rfl

theorem Alike.frameMove (hm : frameMove s = .next t) : ∃ t', Machine.frameMove s' = .next t' ∧ Alike p q t t' := by
  obtain ⟨hp, rfl⟩ | ⟨hp, rfl⟩ | ⟨n, u, hp, hu, rfl⟩ := frameMove_cases hm
  · exact ⟨s', by simp only [Machine.frameMove, h.phase.trans hp], h⟩
  · exact ⟨_, frameMove_of_zero (h.phase.trans hp), h.endOfFrame⟩
  · obtain ⟨u', hu', hlike⟩ := h.slot hu
    exact ⟨u'.afterSlot n, by rw [frameMove_of_succ (h.phase.trans hp), hu', mapNext_next], hlike.afterSlot n⟩

/-- Alike states step to alike states. -/
theorem Alike.step (hstep : step s = .next t) : ∃ t', Machine.step s' = .next t' ∧ Alike p q t t' := by
  have hhost : s'.nextHost = s.nextHost := by
    obtain ⟨k, tr, rfl, _⟩ := h
    rfl
  have hfault : s'.fault = s.fault := by
    obtain ⟨k, tr, rfl, _⟩ := h
    rfl
  obtain ⟨n, hp, hm⟩ | ⟨hp, ⟨hn, hf, rfl⟩ | ⟨hn, hf, hm⟩ | ⟨key, hn, rfl⟩ | ⟨rom, hn, rfl⟩ | ⟨hn, rfl⟩⟩ :=
    step_cases hstep
  · rw [step_of_inFrame (h.phase.trans hp)]
    exact h.frameMove hm
  · exact ⟨_, step_of_cycle_halted (h.phase.trans hp) (hhost.trans hn) (hfault ▸ hf), h.hostTaken⟩
  · rw [step_of_cycle (h.phase.trans hp) (hhost.trans hn) (hfault.trans hf)]
    exact h.hostTaken.openFrame.frameMove hm
  · exact ⟨_, step_of_keyDown (h.phase.trans hp) (hhost.trans hn), h.hostTaken.keyDown key⟩
  · exact ⟨_, step_of_load (h.phase.trans hp) (hhost.trans hn), h.hostTaken.hostLoad rom⟩
  · exact ⟨_, step_of_reset (h.phase.trans hp) (hhost.trans hn), h.hostTaken.construct []⟩

end

/-! ## The statements -/

/-- Settles O59: the two states are alike with the same stack. -/
theorem traceIsNotRead : Obligations.TraceIsNotRead := by
  intro s t tr h
  have alike : Alike True False s { s with trace := tr } :=
    ⟨s.stack, tr, rfl, fun _ _ => rfl, fun _ => rfl, False.elim⟩
  obtain ⟨u, hu, k, tr', rfl, _, hk, _⟩ := alike.step h
  refine ⟨_, hu, ?_⟩
  rw [hk trivial]
  rfl

/-- Settles O60: the two states are alike with the same trace. -/
theorem unusedStackSlotsAreUnobservable : Obligations.UnusedStackSlotsAreUnobservable := by
  intro s s' t hagree h
  have alike : Alike False True s s' := by
    obtain ⟨heq, hlive⟩ := hagree
    exact ⟨s'.stack, s.trace, heq, hlive, False.elim, fun _ => rfl⟩
  obtain ⟨t', ht', k, tr, rfl, hlive, _, htr⟩ := alike.step h
  refine ⟨_, ht', ?_, hlive⟩
  rw [htr trivial]
  rfl

end Sys2Proof.Machine
end

section
/-! SUPPORT. The whole frame as one transition and slot by slot (R128): slots do not read the place in the frame, and
emit no `Paint`. With them the two statements on the frame. -/

namespace Sys2Proof.Machine

variable {i : Instr} {s t : State}

/-! ## Slots do not read the place in the frame -/

theorem exec_withPhase (h : exec i s = .next t) (ph : Phase) :
    exec i { s with phase := ph } = .next { t with phase := ph } := by
  by_cases hi : Part.stack ∈ writtenParts i
  · obtain ⟨nnn, rfl⟩ | rfl := stack_mem_writtenParts hi
    · by_cases hfree : s.sp.val < 16
      · rw [exec_call_of_lt hfree] at h
        cases h
        exact exec_call_of_lt (s := { s with phase := ph }) hfree nnn
      · have hfull : s.sp.val = 16 := by omega
        rw [exec_call_of_full hfull] at h
        cases h
        exact exec_call_of_full (s := { s with phase := ph }) hfull nnn
    · by_cases hpos : 0 < s.sp.val
      · rw [exec_ret_of_pos hpos] at h
        cases h
        exact exec_ret_of_pos (s := { s with phase := ph }) hpos
      · have hempty : s.sp.val = 0 := by omega
        rw [exec_ret_of_empty hempty] at h
        cases h
        exact exec_ret_of_empty (s := { s with phase := ph }) hempty
  · obtain ⟨u, es, hu⟩ := exec_overlayBlind i s hi
    cases h.symm.trans (hu s.stack s.trace s.phase)
    exact hu s.stack s.trace ph

theorem instrStep_withPhase (h : instrStep s = .next t) (ph : Phase) :
    instrStep { s with phase := ph } = .next { t with phase := ph } := by
  obtain ⟨c, hw, rfl⟩ | ⟨w, d, hw, hd, rfl⟩ | ⟨w, i, hw, hd, hexec⟩ := instrStep_cases h
  · exact instrStep_of_fetch_error (s := { s with phase := ph }) hw
  · exact instrStep_of_decode_error (s := { s with phase := ph }) hw hd
  · rw [instrStep_of_decode (s := { s with phase := ph }) hw hd]
    exact exec_withPhase hexec ph

theorem slot_withPhase (h : slot s = .next t) (ph : Phase) :
    slot { s with phase := ph } = .next { t with phase := ph } := by
  obtain ⟨hr, rfl⟩ | ⟨hr, hi⟩ := slot_cases h
  · exact slot_of_not_running (s := { t with phase := ph }) hr
  · rw [slot_of_running (s := { s with phase := ph }) hr]
    exact instrStep_withPhase hi ph

theorem slot_phase (h : slot s = .next t) : t.phase = s.phase := by
  obtain ⟨_, rfl⟩ | ⟨_, hi⟩ := slot_cases h
  · rfl
  · obtain ⟨c, _, rfl⟩ | ⟨w, d, _, _, rfl⟩ | ⟨w, i, _, _, hexec⟩ := instrStep_cases hi
    · rfl
    · rfl
    · exact (exec_unchanged hexec).phase

theorem State.withPhase_of_eq {ph : Phase} (h : s.phase = ph) : { s with phase := ph } = s := by
  subst h
  rfl

theorem State.afterSlot_of_halted (hf : s.fault ≠ none) (n : Nat) :
    s.afterSlot n = { s with phase := .betweenFrames } := by
  simp only [State.afterSlot, Option.isSome_iff_ne_none.2 hf, ↓reduceIte]

theorem State.afterSlot_of_not_halted (hf : s.fault = none) (n : Nat) :
    s.afterSlot n = { s with phase := .inFrame n } := by
  simp [State.afterSlot, hf]

theorem State.frameEnd_phase : s.frameEnd.phase = s.phase := by
  unfold State.frameEnd
  split <;> simp

theorem State.frameEnd_withPhase (ph : Phase) :
    ({ s with phase := ph } : State).frameEnd = { s.frameEnd with phase := ph } := by
  have hfault : ({ s with phase := ph } : State).fault = s.fault := rfl
  have htimers : ({ s with phase := ph } : State).timerStep = { s.timerStep with phase := ph } := by
    by_cases hold : s.paused = true ∧ s.cfg.pauseHoldsTimers = true
    · rw [State.timerStep_of_held hold, State.timerStep_of_held (s := { s with phase := ph }) hold]
    · rw [State.timerStep_of_not_held hold, State.timerStep_of_not_held (s := { s with phase := ph }) hold]
      rfl
  unfold State.frameEnd
  rw [hfault, htimers]
  split <;> rfl

/-! ## The slots in a row -/

theorem runSlots_succ {n : Nat} {u : State} (h : slot s = .next u) : runSlots (n + 1) s = runSlots n u := by
  simp only [runSlots, h]

/-- A halted core passes the rest of its slots as it is (R133). -/
theorem runSlots_of_halted (hf : s.fault ≠ none) (n : Nat) : runSlots n s = .next s := by
  have idle : ¬ s.Running := fun ⟨hnone, _⟩ => hf hnone
  induction n with
  | zero => rfl
  | succ n ih => rw [runSlots_succ (slot_of_not_running idle), ih]

theorem State.frameEnd_of_halted (hf : s.fault ≠ none) : s.frameEnd = s := if_pos (Option.isSome_iff_ne_none.2 hf)

theorem State.frameEnd_of_not_halted (hf : s.fault = none) : s.frameEnd = s.timerStep.emit .paint :=
  if_neg (by simp [hf])

theorem cycle_of_halted (hf : s.fault ≠ none) : cycle s = .next s := if_pos (Option.isSome_iff_ne_none.2 hf)

theorem cycle_of_not_halted (hf : s.fault = none) :
    cycle s = mapNext State.frameEnd (runSlots s.cfg.speed s) := if_neg (by simp [hf])

theorem core_run_succ {k : Nat} {u : State} (h : step s = .next u) :
    Host.Core.run core (k + 1) s = Host.Core.run core k u := by
  have hcore : core.step s = .next u := h
  simp only [Host.Core.run, hcore]

/-- Runs from two states with the same next step are the same. -/
theorem core_run_congr {u : State} (h : step s = step u) (k : Nat) :
    Host.Core.run core (k + 1) s = Host.Core.run core (k + 1) u := by
  obtain ⟨v, hv⟩ := step_total u
  rw [core_run_succ hv, core_run_succ (h.trans hv)]

/-- In a frame with `n` slots to come, `n + 1` steps run the slots and the frame's end, and fewer do where a fault ends
the frame. -/
theorem core_run_frame {n : Nat} (hp : s.phase = .betweenFrames) (hf : s.fault = none)
    (h : mapNext State.frameEnd (runSlots n s) = .next t) :
    ∃ k, k ≤ n ∧ (t.fault = none → k = n) ∧
      Host.Core.run core (k + 1) { s with phase := .inFrame n } = .next t := by
  induction n generalizing s with
  | zero =>
    cases h
    refine ⟨0, Nat.le_refl _, fun _ => rfl, ?_⟩
    have hstep : step { s with phase := .inFrame 0 } = .next s.frameEnd := by
      rw [step_of_inFrame rfl, frameMove_of_zero rfl, State.frameEnd_withPhase,
        State.withPhase_of_eq (State.frameEnd_phase.trans hp)]
    exact core_run_succ hstep
  | succ n ih =>
    obtain ⟨u, hu⟩ := slot_total s
    have hup : u.phase = .betweenFrames := (slot_phase hu).trans hp
    have hstep : step { s with phase := .inFrame (n + 1) } = .next (u.afterSlot n) := by
      rw [step_of_inFrame rfl, frameMove_of_succ rfl, slot_withPhase hu]
      rfl
    rw [runSlots_succ hu] at h
    by_cases huf : u.fault = none
    · obtain ⟨k, hk, hkn, hrun⟩ := ih hup huf h
      refine ⟨k + 1, by omega, fun hnone => by rw [hkn hnone], ?_⟩
      rw [core_run_succ hstep, State.afterSlot_of_not_halted huf]
      exact hrun
    · rw [runSlots_of_halted huf, mapNext_next, State.frameEnd_of_halted huf] at h
      cases h
      refine ⟨0, Nat.zero_le _, fun hnone => absurd hnone huf, ?_⟩
      rw [core_run_succ hstep, State.afterSlot_of_halted huf, State.withPhase_of_eq hup]
      rfl

/-- Neither an instruction nor a fault emits a `Paint`. -/
theorem instrStep_count_paint (h : instrStep s = .next t) : t.trace.count .paint = s.trace.count .paint := by
  have reported (u : State) (pc0 : Word) (c : FaultCause) :
      (u.raiseAt pc0 c).trace.count .paint = u.trace.count .paint := by
    rw [State.raiseAt_trace, List.count_append]
    rfl
  obtain ⟨c, _, rfl⟩ | ⟨w, d, _, _, rfl⟩ | ⟨w, i, _, _, hexec⟩ := instrStep_cases h
  · exact reported s s.pc c
  · exact reported s s.pc _
  · obtain ⟨_, _, es, htrace, hes⟩ | ⟨c, _, rfl⟩ := exec_next_cases hexec
    · have hpaint : es.count .paint = 0 := List.count_eq_zero.2 fun hmem => hes _ hmem
      rw [htrace, List.count_append, hpaint]
      rfl
    · exact reported s.advance s.advance.pc0 c

theorem runSlots_count_paint {n : Nat} (h : runSlots n s = .next t) :
    t.trace.count .paint = s.trace.count .paint := by
  induction n generalizing s with
  | zero => cases h; rfl
  | succ n ih =>
    obtain ⟨u, hu⟩ := slot_total s
    rw [runSlots_succ hu] at h
    refine (ih h).trans ?_
    obtain ⟨_, rfl⟩ | ⟨_, hi⟩ := slot_cases hu
    · rfl
    · exact instrStep_count_paint hi

/-! ## The statements -/

/-- Settles O15: the call opens the frame with its first move; the slots and the end of it follow one by one. A halted
core answers the call at once. -/
theorem stepsOfAFrameAreItsCycle : Obligations.StepsOfAFrameAreItsCycle := by
  intro s t hp hn h
  by_cases hf : s.fault = none
  · rw [cycle_of_not_halted (s := s.hostTaken) hf] at h
    obtain ⟨k, hk, hkn, hrun⟩ := core_run_frame (s := s.hostTaken) hp hf h
    have hk : k ≤ s.cfg.speed := hk
    have hopen : step s = step s.hostTaken.openFrame := (stepRunsDecodedInstruction.2 s hp hn hf).1
    refine ⟨k + 1, by omega, fun hnone => by rw [hkn hnone, State.hostTaken_cfg], ?_⟩
    exact (core_run_congr hopen k).trans hrun
  · rw [cycle_of_halted (s := s.hostTaken) hf] at h
    cases h
    exact ⟨1, by omega, fun hnone => absurd hnone hf, core_run_succ (step_of_cycle_halted hp hn hf)⟩

/-- Settles O16: the slots emit no `Paint`, and the end of a frame that is not halted emits one. -/
theorem onePaintPerFrame : Obligations.OnePaintPerFrame := by
  intro s t h hnone
  by_cases hf : s.fault = none
  · rw [cycle_of_not_halted hf] at h
    obtain ⟨u, hu, rfl⟩ := mapNext_eq_next h
    have huf : u.fault = none := State.frameEnd_fault.symm.trans hnone
    rw [State.frameEnd_of_not_halted huf, State.emit_trace, State.timerStep_trace]
    refine ⟨?_, List.getLast?_concat⟩
    rw [List.count_append, runSlots_count_paint hu]
    rfl
  · rw [cycle_of_halted hf] at h
    cases h
    exact absurd hnone hf

end Sys2Proof.Machine
end

section
/-! SUPPORT. One byte read and written (R61 to R63), the fetch of stored registers (R77), and a sprite drawn twice
(R221, R222, R224), with the statements on them. -/

namespace Sys2Proof.Machine

variable {s t u : State}

/-! ## Bytes -/

/-- Settles O23: a span of one byte. -/
theorem byteReadsAndWrites : Obligations.ByteReadsAndWrites := by
  intro s a b hs
  constructor
  · intro ha
    have hread : s.loadSpan a 1 = .ok [s.peek a] := by
      rw [State.loadSpan_eq, if_neg (by omega)]
      rfl
    have hwrite : s.storeSpan a [b] = .ok (s.poke a b) := by
      rw [State.storeSpan_eq, if_neg (by simp only [List.length_singleton]; omega)]
      rfl
    refine ⟨hread, s.poke a b, hwrite, ?_, fun c hc => ?_, unchanged_of_eq_with_mem rfl (by simp),
      State.memOk_poke hs (by omega) b⟩
    · rw [State.peek_poke hs, if_pos rfl]
    · rw [State.peek_poke hs, if_neg hc]
  · intro ha
    have hbad : max a 0x1000 = a := by omega
    constructor
    · rw [State.loadSpan_eq, if_pos (by omega), hbad]
    · rw [State.storeSpan_eq, if_pos (by simp only [List.length_singleton]; omega), hbad]

/-- Settles O24: the stored span is read back byte by byte, and a fetch reads two of its bytes. -/
theorem fetchSeesStoredBytes : Obligations.FetchSeesStoredBytes := by
  intro s t x k hs hfit hk h
  have hx := x.isLt
  obtain ⟨_, rfl⟩ | ⟨hout, _⟩ := execLdMemVx_cases h
  · have hlength := s.length_regsThrough x
    have stored (j : Nat) (hj : j ≤ x.toNat) :
        (s.pokes s.i.toNat (s.regsThrough x)).peek (s.i.toNat + j) = s.getV (BitVec.ofNat 4 j) := by
      rw [State.peek_pokes_inside hs (by omega) j (by omega), State.getElem_regsThrough]
    have hpc : (BitVec.ofNat 16 (s.i.toNat + k)).toNat = s.i.toNat + k := by
      rw [BitVec.toNat_ofNat]
      omega
    rw [State.fetchWord_of_le (by simp only [hpc]; omega)]
    simp only [hpc]
    exact congrArg₂ (fun hi lo => Except.ok (wordOfBytes hi lo)) (stored k (by omega)) (stored (k + 1) (by omega))
  · omega

/-! ## A sprite drawn twice (R224) -/

/-- Which pixels a sprite covers depends on `I`, two registers and its bytes alone (R221). -/
theorem spriteCovers_congr {x y n : Nibble} {px : Fin 64} {py : Fin 32} (hi : u.i = s.i) (hx : u.getV x = s.getV x)
    (hy : u.getV y = s.getV y) (hbytes : ∀ r, r < rowCount n → u.peek (s.i.toNat + r) = s.peek (s.i.toNat + r)) :
    SpriteCovers u x y n px py ↔ SpriteCovers s x y n px py := by
  simp only [SpriteCovers, hi, hx, hy]
  refine exists_congr fun r => exists_congr fun c => and_congr_right fun hr => ?_
  rw [hbytes r hr]

/-- `VF` after a drawing is 1 exactly on a collision (R221). -/
theorem State.getV_vf_drawSprite (x y n : Nibble) :
    (s.drawSprite x y n).getV vf = 1#8 ↔ ∃ px py, SpriteCovers s x y n px py ∧ s.pixel px py = true := by
  constructor
  · intro hvf
    by_contra hno
    rw [State.getV_vf_drawSprite_of_no_collision x y n hno] at hvf
    exact absurd hvf (by decide)
  · exact State.getV_vf_drawSprite_of_collision x y n

/-- Settles O52: the second drawing toggles the pixels of the first back, and a pixel it finds on is one the first found
off. -/
theorem drwTwiceRestoresTheDisplay : Obligations.DrwTwiceRestoresTheDisplay := by
  intro s t u w x y n hfit ht hfb hi hx hy hbytes hw
  rw [exec_drw_of_le x y n hfit] at ht
  cases ht
  rw [exec_drw_of_le x y n (by rw [hi]; exact hfit)] at hw
  cases hw
  have hcovers {px : Fin 64} {py : Fin 32} : SpriteCovers u x y n px py ↔ SpriteCovers s x y n px py :=
    spriteCovers_congr hi hx hy hbytes
  have covered {px : Fin 64} {py : Fin 32} (h : SpriteCovers s x y n px py) : u.pixel px py = !s.pixel px py :=
    (State.pixel_congr hfb px py).trans (State.pixel_drawSprite_of_covers x y n h)
  have uncovered {px : Fin 64} {py : Fin 32} (h : ¬ SpriteCovers s x y n px py) : u.pixel px py = s.pixel px py :=
    (State.pixel_congr hfb px py).trans (State.pixel_drawSprite_of_not_covers x y n h)
  constructor
  · intro px py
    by_cases h : SpriteCovers s x y n px py
    · rw [State.pixel_drawSprite_of_covers x y n (hcovers.2 h), covered h, Bool.not_not]
    · rw [State.pixel_drawSprite_of_not_covers x y n (mt hcovers.1 h), uncovered h]
  · rw [State.getV_vf_drawSprite]
    refine exists_congr fun px => exists_congr fun py => ?_
    rw [hcovers]
    refine and_congr_right fun h => ?_
    rw [covered h, Bool.not_eq_true']

/-- The reset state with every pixel on. -/
def allOn : State := { State.reset with fb := Vector.replicate 32 (BitVec.allOnes 64) }

theorem pixel_allOn (px : Fin 64) (py : Fin 32) : allOn.pixel px py = true := by
  have hrow : allOn.fb[py.val] = BitVec.allOnes 64 := Vector.getElem_replicate _
  rw [State.pixel, hrow, BitVec.getLsbD_allOnes, decide_eq_true px.isLt]

/-- Refutes O53: where every pixel is on, the first drawing of glyph 0 turns off all it covers, so the second collides
with nothing, though the first byte of the glyph is 0xF0. -/
theorem not_secondDrwCollidesIffSpriteNonempty : ¬ Obligations.SecondDrwCollidesIffSpriteNonempty := by
  intro h
  have hfit : allOn.i.toNat + rowCount 1#4 - 1 ≤ 0xFFF := by decide
  have first := exec_drw_of_le 0#4 1#4 1#4 hfit
  have drawn := State.drawSprite_unchanged (s := allOn) 0#4 1#4 1#4
  have hi := drawn.index (by simp)
  have hx := drawn.regs 0#4 (by simp [vf])
  have hy := drawn.regs 1#4 (by simp [vf])
  have hbytes : ∀ r, r < rowCount 1#4 →
      (allOn.drawSprite 0#4 1#4 1#4).peek (allOn.i.toNat + r) = allOn.peek (allOn.i.toNat + r) :=
    fun r _ => drawn.memory (by simp) _
  have second := exec_drw_of_le (s := allOn.drawSprite 0#4 1#4 1#4) 0#4 1#4 1#4 (by rw [hi]; exact hfit)
  have bit : ∃ r c, r < rowCount 1#4 ∧ c < 8 ∧ (allOn.peek (allOn.i.toNat + r)).getLsbD (7 - c) = true :=
    ⟨0, 0, by decide, by decide, by decide⟩
  have collides := (h allOn _ _ _ 0#4 1#4 1#4 hfit first rfl hi hx hy hbytes second).2 bit
  obtain ⟨px, py, _, hoff⟩ :=
    (drwTwiceRestoresTheDisplay allOn _ _ _ 0#4 1#4 1#4 hfit first rfl hi hx hy hbytes second).2.1 collides
  rw [pixel_allOn] at hoff
  cases hoff

end Sys2Proof.Machine
end
